-- ==== Sys2Proof/Word.lean ====
section
/-! DEFINITION. The byte, the unit of every frame and of every flash transaction (spec/11 Table 11-1). -/

namespace Sys2Proof

/-- Eight bits, as frames and the flash port carry them. -/
abbrev Byte := BitVec 8

/-- A counter of CNT: 32 bits, wrapping (R176). -/
abbrev Count := BitVec 32

end Sys2Proof
end

