-- ==== Sys2Proof/Config.lean ====
section
/-! DEFINITION. The fixed types of the part: status codes, the flash profile, the flash identification.
The numbers that go with them stand in Machine/Defaults.lean and Machine/Operands.lean. -/

namespace Sys2Proof

/-- The status codes of Table 11-7. -/
inductive Status where
  | ok | notOpen | alreadyOpen | unknownKind | badField | badLength | outOfRange | badAlign
  | pageCross | busy | tagInUse | queueFull | noBuffer | replySpace | protectedRange | rangePinned
  | rangeHeld | pinLimit | pinInProgress | unknownJob | jobRunning | profilePending | tableFull
  | locked | flashFault | flashTimeout | programFailed | eraseFailed | verifyMismatch | cancelled
  | aborted
  deriving DecidableEq, Repr

/-- The three bytes of the flash identification, in the order read (R99, R118). -/
structure FlashId where
  b0 : Byte
  b1 : Byte
  b2 : Byte
  deriving DecidableEq, Repr

/-- A flash profile: the 30 fields of R96, in the order of the PROFILE record (Table 11-4). -/
structure Profile where
  readCommand : Byte
  /-- 0 to 15 -/
  readDummy : Nat
  /-- 1, 2 or 4 -/
  readLanes : Nat
  /-- even, 2 to 64 -/
  divider : Nat
  writeEnable : Byte
  programCommand : Byte
  sectorErase : Byte
  blockErase : Byte
  statusCommand : Byte
  busyMask : Byte
  errorStatus : Byte
  programFail : Byte
  eraseFail : Byte
  clearStatus : Byte
  suspendEnable : Bool
  suspendCommand : Byte
  resumeCommand : Byte
  suspendedStatus : Byte
  suspendedMask : Byte
  /-- us -/
  suspendTimeout : Nat
  /-- ms -/
  holdTime : Nat
  suspendLimit : Nat
  fillBudget : Nat
  firstReset : Byte
  secondReset : Byte
  /-- ms -/
  recoveryWait : Nat
  /-- ms -/
  programTimeout : Nat
  /-- ms -/
  sectorTimeout : Nat
  /-- ms -/
  blockTimeout : Nat
  /-- ms -/
  rawTimeout : Nat
  deriving DecidableEq, Repr

end Sys2Proof
end

