-- ==== Sys2Proof/Syntax.lean ====
section
/-! DEFINITION. The commands of the block: one constructor per row of spec/opcode_table.json.
The table gives no operands; these are the model's (log 1). -/

namespace Sys2Proof

/-- The two links (R153). -/
inductive Link where
  | a | b
  deriving DecidableEq, Repr

/-- The request kinds of Table 11-2. -/
inductive Kind where
  | openSession | closeSession | nop | getStatus | getStats
  | read | pin | unpin | invalidate | probeLine
  | program | erase | raw | cancelJob | queryJob
  | setProfile | getProfile | resetFlash | resetPart
  | protect | unprotect | listProtect
  deriving DecidableEq, Repr

/-- The reject reasons of Table 11-6 (R159). -/
inductive RejectReason where
  | crc | length | truncated
  deriving DecidableEq, Repr

/-- How much of a request's frame a command brings (log 2). On link A a frame lies inside one transaction, from the fall
to the rise of CS_A_N (R154, R155): `a` is the rest of that transaction, from where it stands through its rise; `aUpTo n`
brings it to the end of the frame's byte `n` with CS_A_N still asserted (`aUpTo 0` is the fall alone). `b` is the rest of the
frame on link B, from the bytes received already (R157). -/
inductive Arrival where
  | a
  | aUpTo (n : Nat)
  | b
  deriving DecidableEq, Repr

/-- A frame that arrives on a link to its end. -/
def Link.arrival : Link → Arrival
  | .a => .a
  | .b => .b

/-- How much of a frame that is rejected a FRAME_REJECT brings: the rest of the link A transaction or of the link B frame,
through the moment at which the frame is taken with its reason; or bytes that come in after its SYNC on link A, with CS_A_N
still asserted, where the reason is not looked at yet (log 2). -/
inductive RejectArrival where
  | a
  | aBytes (bytes : List Byte)
  | b
  deriving DecidableEq, Repr

/-- A frame on a link that is rejected, to its end. -/
def Link.rejected : Link → RejectArrival
  | .a => .a
  | .b => .b

/-- Which part of a link A transaction that selects nothing a LINK_A_IGNORED_TRANSACTION stands for (R154, log 4): the
fall of CS_A_N; the first byte; the rise; or all of it. -/
inductive IgnoredPart where
  | fall
  | select (first : Byte)
  | rise
  | whole (first : Byte)
  deriving DecidableEq, Repr

/-- Which part of a link A fetch a FETCH stands for (R156, log 4): the fall of CS_A_N; the selector byte, at which the
message is chosen; `count` further bytes clocked; the same and then the rise; or all from the fall to the rise, with `count`
bytes after the selector. -/
inductive FetchPart where
  | fall
  | select
  | shift (count : Nat)
  | finish (count : Nat)
  | whole (count : Nat)
  deriving DecidableEq, Repr

/-- One command. A request carries how its frame arrives, its TAG and its payload bytes as received; LINK_B_TRANSMIT_BEGIN
the level of CTS_B_N, asserted unless said otherwise (log 17). -/
inductive Instr where
  -- the board
  | powerOn (cap : Fin 8) (baud : Fin 4)
  | pinResetAssert
  | pinResetRelease (cap : Fin 8) (baud : Fin 4)
  -- start-up
  | startupSettleEnd
  | startupResetCommandEnd
  | startupRecoveryWaitEnd
  | startupIdReadEnd (id : FlashId)
  | startupStatusReadEnd (status : Byte)
  | startupPollIntervalExpiry
  | startupBusyLimitExpiry
  -- requests
  | openSession (v : Arrival) (tag : Byte) (payload : List Byte)
  | closeSession (v : Arrival) (tag : Byte) (payload : List Byte)
  | nop (v : Arrival) (tag : Byte) (payload : List Byte)
  | getStatus (v : Arrival) (tag : Byte) (payload : List Byte)
  | getStats (v : Arrival) (tag : Byte) (payload : List Byte)
  | read (v : Arrival) (tag : Byte) (payload : List Byte)
  | pin (v : Arrival) (tag : Byte) (payload : List Byte)
  | unpin (v : Arrival) (tag : Byte) (payload : List Byte)
  | invalidate (v : Arrival) (tag : Byte) (payload : List Byte)
  | probeLine (v : Arrival) (tag : Byte) (payload : List Byte)
  | program (v : Arrival) (tag : Byte) (payload : List Byte)
  | erase (v : Arrival) (tag : Byte) (payload : List Byte)
  | raw (v : Arrival) (tag : Byte) (payload : List Byte)
  | cancelJob (v : Arrival) (tag : Byte) (payload : List Byte)
  | queryJob (v : Arrival) (tag : Byte) (payload : List Byte)
  | setProfile (v : Arrival) (tag : Byte) (payload : List Byte)
  | getProfile (v : Arrival) (tag : Byte) (payload : List Byte)
  | resetFlash (v : Arrival) (tag : Byte) (payload : List Byte)
  | resetPart (v : Arrival) (tag : Byte) (payload : List Byte)
  | protect (v : Arrival) (tag : Byte) (payload : List Byte)
  | unprotect (v : Arrival) (tag : Byte) (payload : List Byte)
  | listProtect (v : Arrival) (tag : Byte) (payload : List Byte)
  -- other link events
  | unknownKind (v : Arrival) (kind : Byte) (tag : Byte) (payload : List Byte)
  | frameReject (v : RejectArrival) (reason : RejectReason)
  | linkAOverrun
  | linkAIgnoredTransaction (part : IgnoredPart)
  | fetch (part : FetchPart)
  | linkBOverrun
  | interByteTimerExpiry
  | linkBTransmitBegin (cts : Bool := true)
  | linkBTransmitEnd
  -- the flash port
  | fillArrival (data : List Byte)
  | writeEnableEnd
  | programTransactionEnd
  | eraseTransactionEnd
  | descriptorTransactionEnd (data : List Byte)
  | statusReadEnd (status : Byte)
  | pollIntervalExpiry
  | operationTimeout
  | errorStatusReadEnd (status : Byte)
  | clearStatusEnd
  | verifyReadEnd (data : List Byte)
  -- erase suspension
  | holdTimeExpiry
  | suspendCommandEnd
  | suspendedStatusReadEnd (status : Byte)
  | suspendPollIntervalExpiry
  | suspendTimeout
  | resumeEnd
  -- recovery
  | recoveryResetCommandEnd
  | recoveryWaitEnd
  | recoveryStatusReadEnd (status : Byte)
  | recoveryIdReadEnd (id : FlashId)
  | recoveryTimeout
  -- link B, byte by byte
  | linkBByteReceived (byte : Byte)
  deriving DecidableEq, Repr

end Sys2Proof
end

