-- ==== Sys2Proof/Decode.lean ====
section
/-! DEFINITION. The table gives no row any bits, so no word spells a command (log 25). -/

namespace Sys2Proof

/-- The command a word spells by the table's bits: none, for the table gives none. -/
def decodeTableWord (_ _ : Nat) : Option Instr := none

end Sys2Proof
end

