-- ==== Sys2Proof/Machine/Defaults.lean ====
section
/-! DEFINITION. The numbers the spec fixes: the default profile, the capacities, the sizes and the time limits. -/

namespace Sys2Proof.Machine

/-- The default profile of R96. -/
def defaultProfile : Profile :=
  { readCommand := 0x03, readDummy := 0, readLanes := 1, divider := 16, writeEnable := 0x06,
    programCommand := 0x02, sectorErase := 0x20, blockErase := 0xD8, statusCommand := 0x05,
    busyMask := 0x01, errorStatus := 0, programFail := 0, eraseFail := 0, clearStatus := 0,
    suspendEnable := false, suspendCommand := 0x75, resumeCommand := 0x7A, suspendedStatus := 0x05,
    suspendedMask := 0x80, suspendTimeout := 200, holdTime := 3, suspendLimit := 6, fillBudget := 8,
    firstReset := 0x66, secondReset := 0x99, recoveryWait := 1, programTimeout := 5,
    sectorTimeout := 400, blockTimeout := 2000, rawTimeout := 50 }

/-- Capacity in bytes of a CAP code: 1 MiB doubled with each code (Table 0-4). -/
def capacityOf (code : Fin 8) : Nat := 1048576 * 2 ^ code.val

/-- Address bytes issued on the flash port: 3 up to 16 MiB, 4 above (Table 0-4). -/
def addressBytesOf (code : Fin 8) : Nat := if code.val ≤ 4 then 3 else 4

/-- Link B baud rate of a BAUD code (00 R1). -/
def baudRateOf (code : Fin 4) : Nat :=
  match code with
  | 0 => 115200
  | 1 => 460800
  | 2 => 921600
  | 3 => 3000000

/-- Bytes of a line (R1). -/
def lineSize : Nat := 64
/-- Request records of each link (R23). -/
def recordLimit : Nat := 12
/-- Fill Table entries (R41). -/
def fillLimit : Nat := 8
/-- Jobs of the Job Queue (R59). -/
def jobLimit : Nat := 8
/-- Entries of the job history (R75). -/
def historyLimit : Nat := 8
/-- Reply slots of each link (R160). -/
def slotLimit : Nat := 16
/-- The burst counter's bound (R103). -/
def burstLimit : Nat := 8
/-- Pinned ways and claims of a set (R12). -/
def pinLimit : Nat := 3

/-- us between two status reads of a polling series (R108, R118, R125). -/
def pollInterval : Nat := 20
/-- us of the settle wait of start-up (R118). -/
def settleTime : Nat := 5000
/-- us of the start-up busy limit (R118, R119). -/
def startupLimit : Nat := 10000
/-- us of the recovery limit (R137). -/
def recoveryLimit : Nat := 20000
/-- us of the inter-byte timer (R157). -/
def interByteLimit : Nat := 2000

end Sys2Proof.Machine
end

