-- ==== Sys2Proof/Machine/State.lean ====
section
/-! DEFINITION. The state of the VK2240, block by block (Table 0-1), the reasons a step can stop, and the state
after power-on. -/

namespace Sys2Proof.Machine

/-! ### Line Cache (R2, R4, R12) -/

/-- A line record (R2). INVALID holds no meaningful tag or data; only VALID has a pinned flag (R11). -/
inductive Line where
  | invalid
  | filling (tag : Nat)
  | valid (tag : Nat) (pinned : Bool) (data : List Byte)
  deriving DecidableEq, Repr

/-- One set: 4 ways, the recency list (most recent first, R4) and the pin claim count (R12). -/
structure CacheSet where
  ways : Vector Line 4
  recency : List (Fin 4)
  claims : Nat
  deriving DecidableEq, Repr

/-! ### Request Table (R22 to R27) -/

inductive RecordKind where
  | read | pin
  deriving DecidableEq, Repr

/-- The need states of R26. A WAIT_FILL need names the entry of its own line (R42: there is one at most). -/
inductive NeedState where
  | haveLine | waitFill | waitSlot | waitWay | waitRelease | failed
  deriving DecidableEq, Repr

/-- ACTIVE or PARKED (R27). A record is freed in the event that makes it COMPLETE, so COMPLETE is never held. -/
inductive RecordState where
  | active | parked
  deriving DecidableEq, Repr

/-- What names a record in use: no two records of one link carry the same tag (R24). -/
structure RecordId where
  link : Link
  tag : Byte
  deriving DecidableEq, Repr

/-- A request record (R22). `buffer` has one place per byte of the range, `none` until gathered (R35). -/
structure Record where
  link : Link
  session : Byte
  tag : Byte
  kind : RecordKind
  base : Nat
  length : Nat
  needs : List NeedState
  buffer : List (Option Byte)
  state : RecordState
  pinnedCount : Nat
  status : Status
  deriving DecidableEq, Repr

/-! ### Fill Table (R41) -/

inductive FillPhase where
  | waiting | transfer
  deriving DecidableEq, Repr

/-- A pair of record and line index (R41). -/
structure Waiter where
  id : RecordId
  index : Nat
  deriving DecidableEq, Repr

/-- An entry in use (R41). `way` is absent for a bypass fill; its set follows from the line (R1). -/
structure Fill where
  line : Nat
  way : Option (Fin 4)
  doomed : Bool
  phase : FillPhase
  waiters : List Waiter
  deriving DecidableEq, Repr

/-! ### Job Queue and Staging Pool (R58 to R61, R75) -/

inductive JobKind where
  | program | eraseSector | eraseBlock | raw
  deriving DecidableEq, Repr

/-- The phases of a RUNNING job (R67). -/
inductive Phase where
  | issue | busy | suspending | suspended | verify
  deriving DecidableEq, Repr

/-- A range of flash: base through base + length - 1 (R1). -/
structure Range where
  base : Nat
  length : Nat
  deriving DecidableEq, Repr

/-- The RAW part of a job (R58, R64): effect, write-enable-first flag and descriptor. -/
structure RawJob where
  modifying : Bool
  writeEnableFirst : Bool
  command : Byte
  address : Option Nat
  dummy : Nat
  dataOut : List Byte
  dataInCount : Nat
  deriving DecidableEq, Repr

/-- A job record (R58). `phase` is absent while the job is QUEUED; `outcome` is set as the job ends (R69). -/
structure Job where
  id : BitVec 16
  kind : JobKind
  origin : Link
  session : Byte
  /-- notice flag: true DELIVER, false SUPPRESSED -/
  deliver : Bool
  range : Option Range
  staging : Option (Fin 4)
  verify : Bool
  raw : Option RawJob
  phase : Option Phase
  suspendCount : Nat
  /-- us -/
  busyTime : Nat
  dataIn : List Byte
  outcome : Option Status
  deriving DecidableEq, Repr

/-- A job history entry (R75). -/
structure HistoryEntry where
  id : BitVec 16
  kind : JobKind
  outcome : Status
  suspendCount : Nat
  busyTime : Nat
  deriving DecidableEq, Repr

/-- The jobs, oldest first (R59), the job-id counter (R60) and the history, oldest first (R75). -/
structure JobQueue where
  jobs : List Job
  nextId : BitVec 16
  history : List HistoryEntry
  deriving DecidableEq, Repr

/-! ### Flash Sequencer (R94 to R99, R121, R134) -/

/-- The flash states of R98. -/
inductive FlashState where
  | starting | ready | reading | job | suspending | suspended | recovering | faulted
  deriving DecidableEq, Repr

inductive FaultCause where
  | none | absent | stuckBusy | recoveryTimeout
  deriving DecidableEq, Repr

inductive StartCause where
  | powerOn | pin | resetPart
  deriving DecidableEq, Repr

/-- Which transaction of FSQ's sequences one is. -/
inductive TransactionUse where
  | fillRead (line : Nat)
  | writeEnable | program | erase | descriptor
  | statusRead | errorStatusRead | clearStatus | verifyRead
  | suspendCommand | suspendedStatusRead | resume
  | recoveryReset1 | recoveryReset2 | recoveryStatusRead | recoveryIdRead
  | startupReset1 | startupReset2 | startupIdRead | startupStatusRead
  deriving DecidableEq, Repr

/-- A transaction on the flash port with its parts in order (R94). -/
structure Transaction where
  use : TransactionUse
  command : Byte
  address : List Byte
  dataOut : List Byte
  dummy : Nat
  dataIn : Nat
  lanes : Nat
  deriving DecidableEq, Repr

/-- The waits FSQ makes with no transaction in progress. -/
inductive Wait where
  | none | settle | startupRecovery | startupPoll | poll | suspendPoll | recovery
  deriving DecidableEq, Repr

inductive RecoveryOrigin where
  | job | faulted
  deriving DecidableEq, Repr

/-- A RESET_FLASH request not yet answered (R134); `muted` once a CLOSE has ended its session (R139, log 15). -/
structure ResetRequest where
  link : Link
  session : Byte
  tag : Byte
  muted : Bool
  deriving DecidableEq, Repr

/-- The pending profile with the request it answers (R113 to R115); `muted` once a CLOSE has ended its session. -/
structure PendingProfile where
  profile : Profile
  link : Link
  session : Byte
  tag : Byte
  muted : Bool
  deriving DecidableEq, Repr

/-- FSQ's own state (R96, R98, R99, R103, R121, R134). Times in us. -/
structure Fsq where
  state : FlashState
  cause : FaultCause
  startCause : StartCause
  capCode : Fin 8
  flashId : FlashId
  active : Profile
  pendingProfile : Option PendingProfile
  burst : Nat
  port : Option Transaction
  wait : Wait
  waitTime : Nat
  startupTime : Nat
  segTime : Nat
  fillsServed : Nat
  suspendTime : Nat
  attempt : Nat
  recoveryTime : Nat
  probe : Bool
  origin : RecoveryOrigin
  resetRequests : List ResetRequest
  /-- a RESET_FLASH waits for the end of the transaction in progress (R142, log 22) -/
  resetDue : Bool
  deriving DecidableEq, Repr

/-! ### Protection Table (R145) -/

inductive ProtectMode where
  | noErase | noModify
  deriving DecidableEq, Repr

structure ProtectEntry where
  base : Nat
  length : Nat
  mode : ProtectMode
  locked : Bool
  deriving DecidableEq, Repr

/-! ### Counters (R176) -/

structure Counters where
  lookupHit : Count
  lookupMiss : Count
  fillAttach : Count
  bypassFill : Count
  doomedFill : Count
  suspension : Count
  jobOk : Count
  jobFailed : Count
  deriving DecidableEq, Repr

/-! ### Links and reply queues (R153, R160 to R162) -/

/-- A reply or notice (Table 11-1), without SYNC, LEN and CRC. -/
structure Message where
  kind : Byte
  tag : Byte
  status : Status
  payload : List Byte
  deriving DecidableEq, Repr

inductive Receiver where
  | idle | receiving | discarding
  deriving DecidableEq, Repr

/-- One link interface with its reply queue. `reserved` holds, for each RESERVED slot, the session number of the
frame that reserved it; each FIFO message is an OCCUPIED slot; the rest of the 16 are FREE (R160). -/
structure LinkState where
  isOpen : Bool
  session : Byte
  receiver : Receiver
  buffer : List Byte
  interByte : Nat
  reserved : List Byte
  fifo : List Message
  holder : Option Message
  framesTaken : Count
  framesRejected : Count
  overruns : Count
  deriving DecidableEq, Repr

/-- Where a message being sent came from. -/
inductive Source where
  | holder | fifo
  deriving DecidableEq, Repr

/-- The link A transaction in progress, from the fall of CS_A_N to its rise (R154): none; one whose first byte is not
complete, with the link status byte as taken at the fall; a frame write after its selector (R155), received while the
receiver is RECEIVING and else an overrun; a fetch after its selector (R156), with the message chosen, whether a newer
notice has replaced it, and the number of bytes clocked since; or one whose bytes are ignored to its rise: it selects
nothing (R154), it began under RST_N (R168), or a reset met it (R167). -/
inductive SpiTransaction where
  | none
  | selected (status : Byte)
  | writing
  | fetching (chosen : Option (Message × Source)) (replaced : Bool) (out : Nat)
  | ignored
  deriving DecidableEq, Repr

/-- Link A's port. `sdo`: the whole bytes shifted out in the latest transaction; every later byte of it is 0x00. -/
structure SpiPort where
  transaction : SpiTransaction
  sdo : List Byte
  deriving DecidableEq, Repr

/-- Link B's port: the sampled BAUD code and the message in transmission (R157, R158). -/
structure UartPort where
  baud : Fin 4
  tx : Option (Message × Source)
  deriving DecidableEq, Repr

/-- Input pins that hold a level: RST_N, CTS_B_N (true: asserted) and the straps (Table 0-5). -/
structure Pins where
  rstAsserted : Bool
  cts : Bool
  cap : Fin 8
  baud : Fin 4
  deriving DecidableEq, Repr

/-- The whole part, and the queue of the commands that wait. -/
structure State where
  pending : List Instr
  pins : Pins
  linkA : LinkState
  linkB : LinkState
  spi : SpiPort
  uart : UartPort
  records : List Record
  cache : Vector CacheSet 128
  fills : List Fill
  jq : JobQueue
  staging : Vector (Option (List Byte)) 4
  fsq : Fsq
  protection : Vector (Option ProtectEntry) 8
  counters : Counters
  deriving DecidableEq, Repr

/-- Why a step stops. Every constructor is for a command that names an event which cannot arise in the state it is
commanded in, so the spec gives it no effect there (log 8). All are safe: the hardware never takes that event. -/
inductive Fault where
  /-- A transaction's end is commanded while that transaction is not on the flash port. Raised by the `*_END` rows.
  Safe. -/
  | noSuchTransaction
  /-- The flash returned another number of bytes than the transaction takes (R94). Raised by FILL_ARRIVAL,
  DESCRIPTOR_TRANSACTION_END and VERIFY_READ_END. Safe. -/
  | wrongByteCount
  /-- The transaction on the port belongs to a job or a fill that is not there. Raised by the ends of job
  transactions and FILL_ARRIVAL; no reachable state has it. Safe. -/
  | noOwner
  /-- A timer's expiry is commanded while that timer does not run. Raised by the expiry rows. Safe. -/
  | timerNotRunning
  /-- A timer's expiry is commanded while another timer expires before it. Raised by the expiry rows. Safe. -/
  | otherTimerFirst
  /-- Link A carries one transaction at a time and another one is in progress (R154). Raised by link A commands.
  Safe. -/
  | linkAInTransaction
  /-- Bytes or the rise of a link A transaction are commanded while no such transaction has begun. Raised by FETCH and
  LINK_A_IGNORED_TRANSACTION. Safe. -/
  | noSuchLinkATransaction
  /-- An overrun is commanded while the link is ready or its receiver is not IDLE (R155, R157). Raised by the two
  overrun rows. Safe. -/
  | noOverrun
  /-- The receiver holds bytes that do not begin the frame commanded, or that no such reject can end (R155, R157).
  Raised by the requests, UNKNOWN_KIND and FRAME_REJECT. Safe. -/
  | otherFrameInReception
  /-- The first byte selects a frame write or a fetch (R154). Raised by LINK_A_IGNORED_TRANSACTION. Safe. -/
  | selectorKnown
  /-- The KIND names a request (R171). Raised by UNKNOWN_KIND. Safe. -/
  | kindKnown
  /-- No message is in transmission. Raised by LINK_B_TRANSMIT_END. Safe. -/
  | notTransmitting
  /-- RST_N is not asserted. Raised by PIN_RESET_RELEASE. Safe. -/
  | resetNotAsserted
  deriving DecidableEq, Repr

/-- Why a command has no meaning here. -/
inductive Refusal where
  /-- The command's meaning is not written yet; raised by its arm of `exec`. Safe. -/
  | notModelled (mnemonic : String)
  deriving DecidableEq, Repr

/-! ### After reset -/

/-- A set after reset (R20). -/
def CacheSet.reset : CacheSet :=
  { ways := Vector.replicate 4 .invalid, recency := [0, 1, 2, 3], claims := 0 }

/-- A link interface after reset (R153). -/
def LinkState.reset : LinkState :=
  { isOpen := false, session := 0, receiver := .idle, buffer := [], interByte := 0, reserved := [],
    fifo := [], holder := none, framesTaken := 0, framesRejected := 0, overruns := 0 }

/-- The job queue after reset (R78). -/
def JobQueue.reset : JobQueue := { jobs := [], nextId := 1, history := [] }

/-- All counters 0 (R176). -/
def Counters.zero : Counters :=
  { lookupHit := 0, lookupMiss := 0, fillAttach := 0, bypassFill := 0, doomedFill := 0,
    suspension := 0, jobOk := 0, jobFailed := 0 }

/-- FSQ at the entry to STARTING (R96, R99, R117, R118): the settle wait begins. -/
def Fsq.starting (cause : StartCause) (cap : Fin 8) : Fsq :=
  { state := .starting, cause := .none, startCause := cause, capCode := cap, flashId := ⟨0, 0, 0⟩,
    active := defaultProfile, pendingProfile := none, burst := 0, port := none, wait := .settle,
    waitTime := 0, startupTime := 0, segTime := 0, fillsServed := 0, suspendTime := 0, attempt := 1,
    recoveryTime := 0, probe := false, origin := .job, resetRequests := [], resetDue := false }

/-- Right after power-on (R20, R40, R57, R78, R96, R99, R151, R153, R176), with the straps at 0 (log 10) and
CTS_B_N deasserted (log 17). -/
def State.reset : State :=
  { pending := [], pins := { rstAsserted := false, cts := false, cap := 0, baud := 0 }, linkA := .reset,
    linkB := .reset, spi := { transaction := .none, sdo := [] }, uart := { baud := 0, tx := none },
    records := [], cache := Vector.replicate 128 .reset, fills := [], jq := .reset,
    staging := Vector.replicate 4 none, fsq := Fsq.starting .powerOn 0,
    protection := Vector.replicate 8 none, counters := .zero }

end Sys2Proof.Machine
end

