-- ==== Sys2Proof/Machine/Operands.lean ====
section
/-! DEFINITION. Bytes of frames: byte order, CRC, kind and status codes, the fields of request payloads and the
records of replies and notices (spec/11). -/

namespace Sys2Proof.Machine

/-! ### Byte order and CRC -/

/-- The number spelled by bytes, least significant first (00 0.5). -/
def leNat : List Byte → Nat
  | [] => 0
  | b :: bs => b.toNat + 256 * leNat bs

/-- `n` bytes of a number, least significant first. -/
def leBytes : Nat → Nat → List Byte
  | 0, _ => []
  | n + 1, v => BitVec.ofNat 8 v :: leBytes n (v / 256)

/-- `n` bytes of a number, most significant first, as the flash port sends addresses (00 R1). -/
def beBytes (n v : Nat) : List Byte := (leBytes n v).reverse

/-- The field of `n` bytes at an offset of a payload. -/
def field (p : List Byte) (off n : Nat) : Nat := leNat ((p.drop off).take n)

/-- The byte at an offset of a payload; asked only of offsets that the payload has. -/
def byteAt (p : List Byte) (off : Nat) : Byte := p.getD off 0

/-- One bit step of the CRC of R170: polynomial 0x1021, most significant bit first. -/
def crcShift (c : BitVec 16) : BitVec 16 := if c.msb then (c <<< 1) ^^^ 0x1021 else c <<< 1

/-- One byte entering the CRC register (R170). -/
def crcByte (c : BitVec 16) (b : Byte) : BitVec 16 :=
  (List.range 8).foldl (fun r _ => crcShift r) (c ^^^ (b.zeroExtend 16 <<< 8))

/-- The CRC over bytes: register from 0xFFFF, no reflection, no final value (R170). -/
def crc16 (bs : List Byte) : BitVec 16 := bs.foldl crcByte 0xFFFF

/-! ### Codes -/

/-- Table 11-2. -/
def kindCode : Kind → Byte
  | .openSession => 0x01
  | .closeSession => 0x02
  | .nop => 0x03
  | .getStatus => 0x04
  | .getStats => 0x05
  | .read => 0x10
  | .pin => 0x11
  | .unpin => 0x12
  | .invalidate => 0x13
  | .probeLine => 0x14
  | .program => 0x20
  | .erase => 0x21
  | .raw => 0x22
  | .cancelJob => 0x23
  | .queryJob => 0x24
  | .setProfile => 0x30
  | .getProfile => 0x31
  | .resetFlash => 0x32
  | .resetPart => 0x33
  | .protect => 0x40
  | .unprotect => 0x41
  | .listProtect => 0x42

/-- All request kinds, in the order of Table 11-2. -/
def allKinds : List Kind :=
  [.openSession, .closeSession, .nop, .getStatus, .getStats, .read, .pin, .unpin, .invalidate, .probeLine,
   .program, .erase, .raw, .cancelJob, .queryJob, .setProfile, .getProfile, .resetFlash, .resetPart,
   .protect, .unprotect, .listProtect]

/-- The request a KIND byte names, if any (R171). -/
def kindOfCode (k : Byte) : Option Kind := allKinds.find? (fun x => kindCode x = k)

/-- The KIND of the reply to a KIND: plus 0x80, modulo 256 (R169). -/
def replyKind (k : Byte) : Byte := k + 0x80

/-- Table 11-7. -/
def statusCode : Status → Byte
  | .ok => 0x00
  | .notOpen => 0x01
  | .alreadyOpen => 0x02
  | .unknownKind => 0x03
  | .badField => 0x04
  | .badLength => 0x05
  | .outOfRange => 0x06
  | .badAlign => 0x07
  | .pageCross => 0x08
  | .busy => 0x09
  | .tagInUse => 0x0A
  | .queueFull => 0x0B
  | .noBuffer => 0x0C
  | .replySpace => 0x0D
  | .protectedRange => 0x0E
  | .rangePinned => 0x0F
  | .rangeHeld => 0x10
  | .pinLimit => 0x11
  | .pinInProgress => 0x12
  | .unknownJob => 0x13
  | .jobRunning => 0x14
  | .profilePending => 0x15
  | .tableFull => 0x16
  | .locked => 0x17
  | .flashFault => 0x20
  | .flashTimeout => 0x21
  | .programFailed => 0x22
  | .eraseFailed => 0x23
  | .verifyMismatch => 0x24
  | .cancelled => 0x25
  | .aborted => 0x26

/-! Table 11-6. -/

def flashStateCode : FlashState → Byte
  | .starting => 0
  | .ready => 1
  | .reading => 2
  | .job => 3
  | .suspending => 4
  | .suspended => 5
  | .recovering => 6
  | .faulted => 7

def causeCode : FaultCause → Byte
  | .none => 0
  | .absent => 1
  | .stuckBusy => 2
  | .recoveryTimeout => 3

def startCauseCode : StartCause → Byte
  | .powerOn => 1
  | .pin => 2
  | .resetPart => 3

def jobKindCode : JobKind → Byte
  | .program => 1
  | .eraseSector => 2
  | .eraseBlock => 3
  | .raw => 4

/-- The job state of a record in the queue: 0 QUEUED, 1 RUNNING. -/
def jobStateCode (phase : Option Phase) : Byte := if phase.isSome then 1 else 0

/-- Job phase; 0 when not RUNNING. -/
def phaseCode : Option Phase → Byte
  | none => 0
  | some .issue => 1
  | some .busy => 2
  | some .suspending => 3
  | some .suspended => 4
  | some .verify => 5

def linkCode : Link → Byte
  | .a => 0
  | .b => 1

def modeCode : ProtectMode → Byte
  | .noErase => 1
  | .noModify => 2

def rejectCode : RejectReason → Byte
  | .crc => 1
  | .length => 2
  | .truncated => 3

/-- A flag byte: 1 set, 0 clear (Table 11-1 note 3). -/
def flagByte (f : Bool) : Byte := if f then 1 else 0

/-- The value of a flag byte; none for a value other than 0 or 1 (R172). -/
def flagOf (b : Byte) : Option Bool := if b = 0 then some false else if b = 1 then some true else none

/-! ### Frames (Table 11-1) -/

/-- The body of a frame (KIND through the last payload byte) framed with SYNC, LEN and CRC. -/
def frameOf (body : List Byte) : List Byte :=
  let covered := leBytes 2 body.length ++ body
  [0x5E] ++ covered ++ leBytes 2 (crc16 covered).toNat

/-- A request frame as a partner sends it. -/
def requestFrame (kind tag : Byte) (payload : List Byte) : List Byte := frameOf (kind :: tag :: payload)

/-- A reply or notice as the VK2240 sends it (R169). -/
def messageFrame (m : Message) : List Byte := frameOf (m.kind :: m.tag :: statusCode m.status :: m.payload)

/-- The largest LEN a frame may have (R169). -/
def maxLen : Nat := 300

/-- A received frame's CRC field matches its bytes (R159, R170); the frame is whole. -/
def frameCrcGood (bytes : List Byte) : Bool :=
  let covered := (bytes.drop 1).take (bytes.length - 3)
  leNat (bytes.drop (bytes.length - 2)) = (crc16 covered).toNat

/-! ### Lines and ranges (R1) -/

/-- The line address of a byte address. -/
def lineAddress (a : Nat) : Nat := a / 64 * 64

/-- The set index of a flash address. -/
def setIndex (a : Nat) : Fin 128 := ⟨a / 64 % 128, Nat.mod_lt _ (by decide)⟩

/-- The cache tag of a flash address. -/
def cacheTag (a : Nat) : Nat := a / 8192

/-- The line address of a way (R2). -/
def wayLine (set : Fin 128) (tag : Nat) : Nat := tag * 8192 + set.val * 64

/-- Lines spanned by `length` bytes at `base` (R22). -/
def lineCount (base length : Nat) : Nat := (base % 64 + length + 63) / 64

/-- The line addresses a range spans, in ascending line index. -/
def spannedLines (base length : Nat) : List Nat :=
  (List.range (lineCount base length)).map (fun i => lineAddress base + 64 * i)

/-- A line lies in a range: one of its 64 bytes is in it (R1). -/
def lineInRange (line : Nat) (r : Range) : Bool := line < r.base + r.length && r.base < line + 64

/-- Two ranges span a common line (R80); both have at least one byte. -/
def shareLine (r q : Range) : Bool :=
  lineAddress r.base ≤ lineAddress (q.base + q.length - 1) &&
  lineAddress q.base ≤ lineAddress (r.base + r.length - 1)

/-- Two ranges have a byte in common (R1). -/
def shareByte (r q : Range) : Bool := r.base < q.base + q.length && q.base < r.base + r.length

/-! ### The profile payload (R96, Table 11-4) -/

/-- The profile a 34-byte payload spells; none when a field lies outside its range (R96, R113). -/
def parseProfile (p : List Byte) : Option Profile :=
  let q : Profile :=
    { readCommand := byteAt p 0, readDummy := field p 1 1, readLanes := field p 2 1,
      divider := field p 3 1, writeEnable := byteAt p 4, programCommand := byteAt p 5,
      sectorErase := byteAt p 6, blockErase := byteAt p 7, statusCommand := byteAt p 8,
      busyMask := byteAt p 9, errorStatus := byteAt p 10, programFail := byteAt p 11,
      eraseFail := byteAt p 12, clearStatus := byteAt p 13, suspendEnable := byteAt p 14 = 1,
      suspendCommand := byteAt p 15, resumeCommand := byteAt p 16, suspendedStatus := byteAt p 17,
      suspendedMask := byteAt p 18, suspendTimeout := field p 19 2, holdTime := field p 21 1,
      suspendLimit := field p 22 1, fillBudget := field p 23 1, firstReset := byteAt p 24,
      secondReset := byteAt p 25, recoveryWait := field p 26 1, programTimeout := field p 27 1,
      sectorTimeout := field p 28 2, blockTimeout := field p 30 2, rawTimeout := field p 32 2 }
  let good : Bool :=
    q.readDummy ≤ 15 && (q.readLanes = 1 || q.readLanes = 2 || q.readLanes = 4) &&
    (q.divider % 2 = 0 && 2 ≤ q.divider && q.divider ≤ 64) && q.busyMask ≠ 0 &&
    (flagOf (byteAt p 14)).isSome && q.suspendedMask ≠ 0 &&
    (20 ≤ q.suspendTimeout && q.suspendTimeout ≤ 2000) && (1 ≤ q.holdTime && q.holdTime ≤ 50) &&
    (1 ≤ q.suspendLimit && q.suspendLimit ≤ 32) && (1 ≤ q.fillBudget && q.fillBudget ≤ 16) &&
    (1 ≤ q.recoveryWait && q.recoveryWait ≤ 5) && (1 ≤ q.programTimeout && q.programTimeout ≤ 50) &&
    (50 ≤ q.sectorTimeout && q.sectorTimeout ≤ 2000) && (200 ≤ q.blockTimeout && q.blockTimeout ≤ 8000) &&
    (1 ≤ q.rawTimeout && q.rawTimeout ≤ 500)
  if good then some q else none

/-- The PROFILE record, 34 bytes (Table 11-4). -/
def profileBytes (q : Profile) : List Byte :=
  [q.readCommand] ++ leBytes 1 q.readDummy ++ leBytes 1 q.readLanes ++ leBytes 1 q.divider ++
  [q.writeEnable, q.programCommand, q.sectorErase, q.blockErase, q.statusCommand, q.busyMask,
   q.errorStatus, q.programFail, q.eraseFail, q.clearStatus, flagByte q.suspendEnable,
   q.suspendCommand, q.resumeCommand, q.suspendedStatus, q.suspendedMask] ++
  leBytes 2 q.suspendTimeout ++ leBytes 1 q.holdTime ++ leBytes 1 q.suspendLimit ++
  leBytes 1 q.fillBudget ++ [q.firstReset, q.secondReset] ++ leBytes 1 q.recoveryWait ++
  leBytes 1 q.programTimeout ++ leBytes 2 q.sectorTimeout ++ leBytes 2 q.blockTimeout ++
  leBytes 2 q.rawTimeout

/-- The timeout of a job's kind, in us (R96). -/
def timeoutOf (q : Profile) : JobKind → Nat
  | .program => q.programTimeout * 1000
  | .eraseSector => q.sectorTimeout * 1000
  | .eraseBlock => q.blockTimeout * 1000
  | .raw => q.rawTimeout * 1000

/-! ### Notices (Table 11-5) and the reply of a request -/

def flashIdBytes (i : FlashId) : List Byte := [i.b0, i.b1, i.b2]

/-- A reply: the request's KIND plus 0x80 and its TAG (R169). -/
def replyMessage (k : Kind) (tag : Byte) (st : Status) (payload : List Byte) : Message :=
  { kind := replyKind (kindCode k), tag := tag, status := st, payload := payload }

/-- FRAME_REJECT with its reason and the running reject count (R159). -/
def rejectNotice (r : RejectReason) (count : Count) : Message :=
  { kind := 0xF2, tag := 0, status := .ok, payload := rejectCode r :: leBytes 4 count.toNat }

/-- FLASH_STATE (R144). -/
def flashStateNotice (q : Fsq) : Message :=
  { kind := 0xF3, tag := 0, status := .ok,
    payload := [flashStateCode q.state, causeCode q.cause] ++ flashIdBytes q.flashId }

/-- START (R120). -/
def startNotice (q : Fsq) : Message :=
  { kind := 0xF4, tag := 0, status := .ok,
    payload := [startCauseCode q.startCause, flashStateCode q.state, causeCode q.cause] ++
      flashIdBytes q.flashId ++ [BitVec.ofNat 8 q.capCode.val] }

/-- JOB_DONE: the data-in bytes only for a RAW job that ended OK (R71). -/
def jobDoneNotice (j : Job) (o : Status) : Message :=
  let data := if j.kind = .raw ∧ o = .ok then j.dataIn else []
  { kind := 0xF1, tag := 0, status := o,
    payload := leBytes 2 j.id.toNat ++ [jobKindCode j.kind] ++ leBytes 1 j.suspendCount ++
      leBytes 4 j.busyTime ++ leBytes 1 data.length ++ data }

end Sys2Proof.Machine
end

