-- ==== Sys2Proof/Machine/Flags.lean ====
section
/-! DEFINITION. What is read off the state: masks, readiness, the level outputs, the link status byte, the running
job, holds, totals. Each is stored once and computed here (log 21). -/

namespace Sys2Proof.Machine

/-- A mask reads set when the byte shares a bit with it (R96). -/
def readsSet (mask byte : Byte) : Bool := byte &&& mask ≠ 0

/-- All 0x00 or all 0xFF: no device answers (R119, R136). -/
def idAbsent (i : FlashId) : Bool :=
  (i.b0 = 0x00 && i.b1 = 0x00 && i.b2 = 0x00) || (i.b0 = 0xFF && i.b1 = 0xFF && i.b2 = 0xFF)

/-! ### Links -/

/-- The state of one link. -/
def State.link (s : State) : Link → LinkState
  | .a => s.linkA
  | .b => s.linkB

/-- FREE reply slots (R160). -/
def LinkState.freeSlots (k : LinkState) : Nat := slotLimit - (k.reserved.length + k.fifo.length)

/-- The receive buffer holds a whole frame (R153), as link A's does from the last CRC byte to the rise of CS_A_N
(R155). -/
def LinkState.holdsWhole (k : LinkState) : Bool :=
  3 ≤ k.buffer.length && field k.buffer 1 2 + 5 ≤ k.buffer.length

/-- Ready for a frame (R153). -/
def State.ready (s : State) (l : Link) : Bool :=
  !s.pins.rstAsserted && s.fsq.state ≠ .starting && !(s.link l).holdsWhole && 1 ≤ (s.link l).freeSlots

/-- A message waits in the FIFO or the holder (R154, R158). -/
def LinkState.messageWaiting (k : LinkState) : Bool := !k.fifo.isEmpty || k.holder.isSome

/-- RDY_A driven high (R153, R168). -/
def State.rdyA (s : State) : Bool := s.ready .a
/-- RTS_B_N asserted (R153, R168). -/
def State.rtsB (s : State) : Bool := s.ready .b
/-- ATTN_A asserted (R163). -/
def State.attnA (s : State) : Bool := s.linkA.messageWaiting
/-- ATTN_B asserted (R163): through the transmission of the last message too. -/
def State.attnB (s : State) : Bool := s.linkB.messageWaiting || s.uart.tx.isSome
/-- CS_A_N asserted: a link A transaction is in progress (R154). -/
def State.csA (s : State) : Bool := s.spi.transaction ≠ .none
/-- SDO_A driven; else it is high impedance (R154, R168). -/
def State.sdoDriven (s : State) : Bool := s.csA && !s.pins.rstAsserted
/-- The byte shifted out on SDO_A at a place of the latest transaction, the status byte first (R154 to R156). -/
def SpiPort.shiftedOut (p : SpiPort) (place : Nat) : Byte := p.sdo.getD place 0
/-- FCS_N asserted: a transaction is in progress (R94). -/
def State.fcsAsserted (s : State) : Bool := s.fsq.port.isSome

/-- The link status byte (R154): bit 0 ready, bit 1 message waiting, bit 2 session open, the rest 0. -/
def State.linkStatusByte (s : State) : Byte :=
  (if s.ready .a then 0x01 else 0x00) ||| (if s.linkA.messageWaiting then 0x02 else 0x00) |||
  (if s.linkA.isOpen then 0x04 else 0x00)

/-! ### The cache -/

/-- The set of an index. -/
def State.set (s : State) (i : Fin 128) : CacheSet := s.cache[i]

/-- The tag a way reports: 0 in INVALID (R2, R19). -/
def Line.tag : Line → Nat
  | .invalid => 0
  | .filling t => t
  | .valid t _ _ => t

def Line.isValid : Line → Bool
  | .valid _ _ _ => true
  | _ => false

def Line.isFilling : Line → Bool
  | .filling _ => true
  | _ => false

/-- The pinned flag: clear unless VALID (R2, R11). -/
def Line.pinned : Line → Bool
  | .valid _ p _ => p
  | _ => false

/-- The line state code of Table 11-6. -/
def Line.code : Line → Byte
  | .invalid => 0
  | .filling _ => 1
  | .valid _ _ _ => 2

/-- The way number holds the tag as VALID. -/
def CacheSet.holds (c : CacheSet) (tag : Nat) (w : Fin 4) : Bool :=
  c.ways[w].isValid && c.ways[w].tag = tag

/-- The way that a lookup of the tag hits: VALID with the tag (R5). -/
def CacheSet.hit (c : CacheSet) (tag : Nat) : Option (Fin 4) := [0, 1, 2, 3].find? (c.holds tag)

/-- Pinned ways of the set (R11). -/
def CacheSet.pinnedWays (c : CacheSet) : Nat :=
  (([0, 1, 2, 3] : List (Fin 4)).filter (fun w => c.ways[w].pinned)).length

/-- The line is in the cache, VALID and pinned ("already pinned", R30). -/
def State.linePinned (s : State) (line : Nat) : Bool :=
  let c := s.set (setIndex line)
  match c.hit (cacheTag line) with
  | some w => c.ways[w].pinned
  | none => false

/-- The total of pinned ways, 0 to 384 (R11). -/
def State.pinnedTotal (s : State) : Nat := (s.cache.toList.map CacheSet.pinnedWays).sum

/-! ### Records, fills, jobs -/

def Record.id (r : Record) : RecordId := { link := r.link, tag := r.tag }

def Record.range (r : Record) : Range := { base := r.base, length := r.length }

/-- The line address of a need (R26). -/
def Record.lineOf (r : Record) (i : Nat) : Nat := lineAddress r.base + 64 * i

/-- The record in use that a RecordId names. -/
def State.record (s : State) (id : RecordId) : Option Record := s.records.find? (fun r => r.id = id)

/-- The records in use of a link (R23). -/
def State.recordsOf (s : State) (l : Link) : List Record := s.records.filter (fun r => r.link = l)

/-- The need states of a record with an index, paired. -/
def Record.indexed (r : Record) (n : NeedState) : List Nat :=
  (List.range r.needs.length).filter (fun i => r.needs[i]? = some n)

/-- The waiting needs of one state, in acceptance order of the records, then by line index (R33, R47). -/
def State.needsIn (s : State) (n : NeedState) : List Waiter :=
  s.records.flatMap (fun r => (r.indexed n).map (fun i => { id := r.id, index := i }))

/-- The slot queue (R47). -/
def State.slotQueue (s : State) : List Waiter := s.needsIn .waitSlot

/-- A waiter's need is in the given state. -/
def State.needIs (s : State) (w : Waiter) (n : NeedState) : Bool :=
  match s.record w.id with
  | some r => r.needs[w.index]? = some n
  | none => false

/-- The line a waiter waits for. -/
def State.waiterLine (s : State) (w : Waiter) : Option Nat := (s.record w.id).map (fun r => r.lineOf w.index)

/-- The entry of a line (R42). -/
def State.fill (s : State) (line : Nat) : Option Fill := s.fills.find? (fun f => f.line = line)

/-- The oldest WAITING entry in order of creation (R46). -/
def State.oldestWaiting (s : State) : Option Fill := s.fills.find? (fun f => f.phase = .waiting)

/-- A Fill Table entry is free (R41). -/
def State.fillFree (s : State) : Bool := s.fills.length < fillLimit

/-- The entry bound to a way (R19). -/
def State.boundFill (s : State) (i : Fin 128) (w : Fin 4) : Option Fill :=
  s.fills.find? (fun f => f.way = some w && setIndex f.line = i)

/-- The holds in force: the ranges of the jobs (R79). -/
def State.holds (s : State) : List Range := s.jq.jobs.filterMap (fun j => j.range)

/-- A range overlaps a hold (R80). -/
def State.overlapsHold (s : State) (r : Range) : Bool := s.holds.any (fun h => shareLine r h)

/-- A range spans a line of a PIN in progress on either link (R80). -/
def State.overlapsPin (s : State) (r : Range) : Bool :=
  s.records.any (fun q => q.kind = .pin && shareLine r q.range)

/-- The head of the Job Queue (R59). -/
def State.head (s : State) : Option Job := s.jq.jobs.head?

/-- The head job is QUEUED. -/
def State.headQueued (s : State) : Bool :=
  match s.head with
  | some j => j.phase.isNone
  | none => false

/-- The RUNNING job; it is the oldest (R59). -/
def State.running (s : State) : Option Job :=
  match s.head with
  | some j => if j.phase.isSome then some j else none
  | none => none

/-- The phase of the RUNNING job. -/
def State.phase (s : State) : Option Phase := s.head.bind (fun j => j.phase)

/-- Free staging buffers (R61). -/
def State.freeBuffers (s : State) : Nat := (s.staging.toList.filter Option.isNone).length

/-- The free staging buffer with the lowest number (R61). -/
def State.lowestFreeBuffer (s : State) : Option (Fin 4) := [0, 1, 2, 3].find? (fun (i : Fin 4) => s.staging[i].isNone)

/-- The empty protection slot with the lowest index (R147). -/
def State.lowestEmptySlot (s : State) : Option (Fin 8) :=
  [0, 1, 2, 3, 4, 5, 6, 7].find? (fun (i : Fin 8) => s.protection[i].isNone)

/-- The capacity of the flash (R1). -/
def State.capacity (s : State) : Nat := capacityOf s.fsq.capCode

/-- The timeout of the RUNNING job, in us (R108); 0 with none RUNNING. -/
def State.runningTimeout (s : State) : Nat :=
  match s.running with
  | some j => timeoutOf s.fsq.active j.kind
  | none => 0

def Job.isErase (j : Job) : Bool := j.kind = .eraseSector || j.kind = .eraseBlock

/-- Conditions 1 to 3, 5 and 6 of R122, but for the read in progress: all but the hold time. -/
def State.suspensionWanted (s : State) : Bool :=
  match s.running with
  | some j =>
    j.isErase && j.phase = some .busy && s.fsq.active.suspendEnable && s.oldestWaiting.isSome &&
    j.suspendCount < s.fsq.active.suspendLimit && s.fsq.pendingProfile.isNone
  | none => false

/-- All of R122 but the read in progress. -/
def State.suspensionDue (s : State) : Bool :=
  s.suspensionWanted && s.fsq.active.holdTime * 1000 ≤ s.fsq.segTime

end Sys2Proof.Machine
end

