-- ==== Sys2Proof/Machine/Ops.lean ====
section
/-! DEFINITION. The named operations over links, reply slots, the cache, the records and the flash port's bookkeeping.
Every meaning goes through these. -/

namespace Sys2Proof.Machine

/-! ### Links and reply slots (R159 to R162) -/

/-- Change the state of one link. -/
def State.updLink (s : State) (l : Link) (f : LinkState → LinkState) : State :=
  match l with
  | .a => { s with linkA := f s.linkA }
  | .b => { s with linkB := f s.linkB }

/-- FREE to RESERVED, under the link's session number (R160). -/
def LinkState.reserve (k : LinkState) : LinkState := { k with reserved := k.reserved ++ [k.session] }

/-- A reply or notice is placed in the slot reserved under a session: RESERVED to OCCUPIED on an OPEN link, to FREE on a
CLOSED one; with no such slot nothing is placed (R160, R161). -/
def LinkState.place (k : LinkState) (session : Byte) (m : Message) : LinkState :=
  if session ∈ k.reserved then
    { k with reserved := k.reserved.erase session, fifo := if k.isOpen then k.fifo ++ [m] else k.fifo }
  else k

/-- Reserve a slot of a link. -/
def State.reserve (s : State) (l : Link) : State := s.updLink l LinkState.reserve

/-- Place a reply or notice on a link. -/
def State.place (s : State) (l : Link) (session : Byte) (m : Message) : State :=
  s.updLink l (fun k => k.place session m)

/-- The fetch in progress is of the holder's notice and a newer notice replaces it (R156). -/
def SpiPort.noteReplaced (p : SpiPort) : SpiPort :=
  match p.transaction with
  | .fetching (some (m, .holder)) _ out => { p with transaction := .fetching (some (m, .holder)) true out }
  | _ => p

/-- A notice is given to the state-notice holder of a link, replacing an unsent one (R162). -/
def State.giveNotice (s : State) (l : Link) (m : Message) : State :=
  match l with
  | .a => { s with linkA := { s.linkA with holder := some m }, spi := s.spi.noteReplaced }
  | .b => { s with linkB := { s.linkB with holder := some m } }

/-- FLASH_STATE to each OPEN link (R144). -/
def State.giveFlashState (s : State) : State :=
  let m := flashStateNotice s.fsq
  let s := if s.linkA.isOpen then s.giveNotice .a m else s
  if s.linkB.isOpen then s.giveNotice .b m else s

/-! ### Blocks -/

def State.updFsq (s : State) (f : Fsq → Fsq) : State := { s with fsq := f s.fsq }

def State.updCounters (s : State) (f : Counters → Counters) : State := { s with counters := f s.counters }

/-- Change one set of the cache. -/
def State.updSet (s : State) (i : Fin 128) (f : CacheSet → CacheSet) : State :=
  { s with cache := s.cache.set i (f s.cache[i]) }

/-- Change the record that a RecordId names. -/
def State.updRecord (s : State) (id : RecordId) (f : Record → Record) : State :=
  { s with records := s.records.map (fun r => if r.id = id then f r else r) }

/-- Change the head job. -/
def State.updHead (s : State) (f : Job → Job) : State :=
  { s with jq := { s.jq with jobs := s.jq.jobs.modifyHead f } }

/-! ### One set of the cache (R4 to R13) -/

/-- A way moves to the front of the recency list (R4). -/
def CacheSet.toFront (c : CacheSet) (w : Fin 4) : CacheSet := { c with recency := w :: c.recency.erase w }

/-- A way moves to the back of the recency list (R4). -/
def CacheSet.toBack (c : CacheSet) (w : Fin 4) : CacheSet := { c with recency := c.recency.erase w ++ [w] }

/-- A way's line record is replaced. -/
def CacheSet.putLine (c : CacheSet) (w : Fin 4) (x : Line) : CacheSet := { c with ways := c.ways.set w x }

/-- The victim of R6: the INVALID way that stands last, else the VALID unpinned way that stands last. -/
def CacheSet.victim (c : CacheSet) : Option (Fin 4) :=
  match c.recency.reverse.find? (fun w => c.ways[w] = .invalid) with
  | some w => some w
  | none => c.recency.reverse.find? (fun w => c.ways[w].isValid && !c.ways[w].pinned)

/-- Allocation of a way to a tag: FILLING, no recency move (R7). -/
def CacheSet.allocate (c : CacheSet) (w : Fin 4) (tag : Nat) : CacheSet := c.putLine w (.filling tag)

/-- Install: VALID with the bytes, to the front (R9). -/
def CacheSet.install (c : CacheSet) (w : Fin 4) (tag : Nat) (pinned : Bool) (data : List Byte) : CacheSet :=
  (c.putLine w (.valid tag pinned data)).toFront w

/-- A way becomes INVALID and moves to the back (R10, R13). -/
def CacheSet.drop (c : CacheSet) (w : Fin 4) : CacheSet := (c.putLine w .invalid).toBack w

/-- Set or clear the pinned flag of a VALID way. -/
def Line.withPinned (x : Line) (p : Bool) : Line :=
  match x with
  | .valid t _ d => .valid t p d
  | y => y

def CacheSet.setPinned (c : CacheSet) (w : Fin 4) (p : Bool) : CacheSet := c.putLine w (c.ways[w].withPinned p)

/-- The way is VALID, unpinned and its line lies in the range. -/
def CacheSet.discardable (c : CacheSet) (i : Fin 128) (r : Range) (w : Fin 4) : Bool :=
  c.ways[w].isValid && !c.ways[w].pinned && lineInRange (wayLine i c.ways[w].tag) r

/-- The way is pinned and its line lies in the range. -/
def CacheSet.pinnedIn (c : CacheSet) (i : Fin 128) (r : Range) (w : Fin 4) : Bool :=
  c.ways[w].pinned && lineInRange (wayLine i c.ways[w].tag) r

/-- Invalidate the discardable ways of a set, taking first the way that stood nearest the front (R4, R13). -/
def CacheSet.discard (c : CacheSet) (i : Fin 128) (r : Range) : CacheSet :=
  (c.recency.filter (c.discardable i r)).foldl CacheSet.drop c

/-- Clear the pinned flag of the pinned ways in a range; no recency move (R15). -/
def CacheSet.unpin (c : CacheSet) (i : Fin 128) (r : Range) : CacheSet :=
  (([0, 1, 2, 3] : List (Fin 4)).filter (c.pinnedIn i r)).foldl (fun d w => d.setPinned w false) c

/-- How many ways of the whole cache satisfy a test. -/
def State.countWays (s : State) (p : Fin 128 → CacheSet → Fin 4 → Bool) : Nat :=
  ((List.finRange 128).map
    (fun i => (([0, 1, 2, 3] : List (Fin 4)).filter (p i (s.set i))).length)).sum

/-- Change every set. -/
def State.mapSets (s : State) (f : Fin 128 → CacheSet → CacheSet) : State :=
  { s with cache := Vector.ofFn (fun i => f i s.cache[i]) }

/-- Raise a set's pin claim count for a line (R12). -/
def State.addClaim (s : State) (line : Nat) : State :=
  s.updSet (setIndex line) (fun c => { c with claims := c.claims + 1 })

/-- Remove a pin claim for a line (R12). -/
def State.dropClaim (s : State) (line : Nat) : State :=
  s.updSet (setIndex line) (fun c => { c with claims := c.claims - 1 })

/-! ### Fill Table (R41, R49, R55) -/

/-- Doom an entry whose line lies in a range (R49). -/
def Fill.doomIn (r : Range) (f : Fill) : Fill := if lineInRange f.line r then { f with doomed := true } else f

/-- The entries that a range would doom: in it and not yet doomed. -/
def State.doomable (s : State) (r : Range) : Nat :=
  (s.fills.filter (fun f => lineInRange f.line r && !f.doomed)).length

/-- Discard the VALID unpinned lines of a range and doom its entries (R17, R81); DOOMED_FILL rises for each flag set. -/
def State.clearRange (s : State) (r : Range) : State :=
  let n := s.doomable r
  let s := s.mapSets (fun i c => c.discard i r)
  { s with
    fills := s.fills.map (Fill.doomIn r)
    counters := { s.counters with doomedFill := s.counters.doomedFill + BitVec.ofNat 32 n } }

/-- Remove a record's pairs from every waiter list (R55). -/
def State.withdraw (s : State) (id : RecordId) : State :=
  { s with fills := s.fills.map (fun f => { f with waiters := f.waiters.filter (fun w => w.id ≠ id) }) }

/-- Remove the entry of a line (R50, step 2). -/
def State.removeFill (s : State) (line : Nat) : State := { s with fills := s.fills.filter (fun f => f.line ≠ line) }

/-- Change the entry of a line. -/
def State.updFill (s : State) (line : Nat) (g : Fill → Fill) : State :=
  { s with fills := s.fills.map (fun f => if f.line = line then g f else f) }

/-! ### Records (R26, R35) -/

def Record.setNeed (r : Record) (i : Nat) (n : NeedState) : Record := { r with needs := r.needs.set i n }

/-- Copy the bytes of a line that lie in the READ's range to their places (R5, R35). -/
def Record.copyLine (r : Record) (i : Nat) (data : List Byte) : Record :=
  { r with buffer := r.buffer.mapIdx (fun k old =>
      if lineAddress (r.base + k) = r.lineOf i then data[(r.base + k) % 64]? else old) }

/-- The gathered bytes in address order. -/
def Record.gathered (r : Record) : List Byte := r.buffer.filterMap (fun x => x)

def State.setNeed (s : State) (w : Waiter) (n : NeedState) : State :=
  s.updRecord w.id (fun r => r.setNeed w.index n)

/-! ### The flash port (R94) -/

/-- A transaction begins: FCS_N is asserted and no wait runs. -/
def State.begin (s : State) (t : Transaction) : State :=
  s.updFsq (fun q => { q with port := some t, wait := .none, waitTime := 0 })

/-- The transaction in progress ends: FCS_N is deasserted. -/
def State.endPort (s : State) : State := s.updFsq (fun q => { q with port := none })

/-- A wait begins. -/
def State.beginWait (s : State) (w : Wait) : State := s.updFsq (fun q => { q with wait := w, waitTime := 0 })

/-- A one-byte transaction. -/
def oneByte (use : TransactionUse) (command : Byte) : Transaction :=
  { use := use, command := command, address := [], dataOut := [], dummy := 0, dataIn := 0, lanes := 1 }

/-- A command byte and `n` data-in bytes, single-lane. -/
def readBytes (use : TransactionUse) (command : Byte) (n : Nat) : Transaction :=
  { use := use, command := command, address := [], dataOut := [], dummy := 0, dataIn := n, lanes := 1 }

/-- The address bytes FSQ issues (R1, R94). -/
def State.addressBytes (s : State) (a : Nat) : List Byte := beBytes (addressBytesOf s.fsq.capCode) a

/-- A read with the profile's read command, dummy clocks and lanes (R98, R102, R110). -/
def State.lineRead (s : State) (use : TransactionUse) (addr n : Nat) : Transaction :=
  { use := use, command := s.fsq.active.readCommand, address := s.addressBytes addr, dataOut := [],
    dummy := s.fsq.active.readDummy, dataIn := n, lanes := s.fsq.active.readLanes }

/-- The transaction in progress is the given one. -/
def State.portIs (s : State) (use : TransactionUse) : Bool :=
  match s.fsq.port with
  | some t => t.use = use
  | none => false

/-- The transaction in progress is the given one and takes `n` data-in bytes. -/
def State.portTakes (s : State) (use : TransactionUse) (n : Nat) : Bool :=
  match s.fsq.port with
  | some t => t.use = use && t.dataIn = n
  | none => false

def State.setFlash (s : State) (x : FlashState) : State := s.updFsq (fun q => { q with state := x })

/-- Set the phase of the RUNNING job. -/
def State.setPhase (s : State) (p : Phase) : State := s.updHead (fun j => { j with phase := some p })

/-! ### Time -/

/-- The busy time grows: BUSY, polling, between reads or in one (R68, R108). -/
def State.busyGrows (s : State) : Bool :=
  s.phase = some .busy && (s.fsq.wait = .poll || s.portIs .statusRead)

/-- The limit of the wait that runs, in us. -/
def State.waitLimit (s : State) : Option Nat :=
  match s.fsq.wait with
  | .none => none
  | .settle => some settleTime
  | .startupRecovery => some (s.fsq.active.recoveryWait * 1000)
  | .startupPoll => some pollInterval
  | .poll => some pollInterval
  | .suspendPoll => some pollInterval
  | .recovery => some (s.fsq.active.recoveryWait * 1000)

/-- What is left, in us, to each event of the block's timers that is taken at its moment: the wait that runs; the
start-up limit, the operation timeout, the hold time, the suspend timeout and the recovery limit while no transaction
is in progress; link B's inter-byte timer. -/
def State.deadlines (s : State) : List Nat :=
  (match s.waitLimit with
    | some n => [n - s.fsq.waitTime]
    | none => []) ++
  (if s.fsq.wait = .startupPoll then [startupLimit - s.fsq.startupTime] else []) ++
  (if s.fsq.wait = .poll then
    (match s.running with
      | some j => [timeoutOf s.fsq.active j.kind - j.busyTime]
      | none => []) ++
    (if s.suspensionWanted then [s.fsq.active.holdTime * 1000 - s.fsq.segTime] else [])
   else []) ++
  (if s.fsq.wait = .suspendPoll then [s.fsq.active.suspendTimeout - s.fsq.suspendTime] else []) ++
  (if s.fsq.wait = .recovery then [recoveryLimit - s.fsq.recoveryTime] else []) ++
  (if s.linkB.receiver = .idle then [] else [interByteLimit - s.linkB.interByte])

/-- `n` us can pass before the next event of a timer is due. -/
def State.canPass (s : State) (n : Nat) : Bool := s.deadlines.all (fun d => n ≤ d)

/-- How much the busy time and the segment time grow in `n` us: they stop at the timeout (R108, R121). -/
def State.busyGrowth (s : State) (n : Nat) : Nat :=
  if s.busyGrows then
    match s.running with
    | some j => min n (timeoutOf s.fsq.active j.kind - j.busyTime)
    | none => 0
  else 0

/-- `n` us pass: every running timer advances. -/
def State.advance (s : State) (n : Nat) : State :=
  let g := s.busyGrowth n
  { s with
    jq := { s.jq with jobs := s.jq.jobs.modifyHead (fun j => { j with busyTime := j.busyTime + g }) }
    linkB := { s.linkB with
      interByte := if s.linkB.receiver = .idle then s.linkB.interByte
        else min interByteLimit (s.linkB.interByte + n) }
    fsq := { s.fsq with
      waitTime := if s.fsq.wait = .none then s.fsq.waitTime else s.fsq.waitTime + n
      segTime := s.fsq.segTime + g
      startupTime := if s.fsq.wait = .startupPoll || s.portIs .startupStatusRead
        then min startupLimit (s.fsq.startupTime + n) else s.fsq.startupTime
      suspendTime := if s.fsq.wait = .suspendPoll || s.portIs .suspendedStatusRead
        then min s.fsq.active.suspendTimeout (s.fsq.suspendTime + n) else s.fsq.suspendTime
      recoveryTime := if s.fsq.state = .recovering
        then min recoveryLimit (s.fsq.recoveryTime + n) else s.fsq.recoveryTime } }

/-- Nothing is commanded: 1 us passes, unless an event of a timer is due (log 5). -/
def State.tick (s : State) : State := if s.canPass 1 then s.advance 1 else s

/-- A timer's event at its moment: the time that is left to it passes, then its act; not before another timer's
event (log 6). -/
def atExpiry (s : State) (left : Nat) (act : State → State) : Host.Outcome State Fault Refusal :=
  if s.canPass left then .next (act (s.advance left)) else .fault .otherTimerFirst

end Sys2Proof.Machine
end

