-- ==== Sys2Proof/Machine/Lookup.lean ====
section
/-! DEFINITION. Shared operations of the read path: lookups, misses, parking, completion, and what the end of a fill
does for the needs that wait (spec/01 to 03, 05). -/

namespace Sys2Proof.Machine

/-! ### Counters -/

def State.countHit (s : State) : State := s.updCounters (fun c => { c with lookupHit := c.lookupHit + 1 })
def State.countMiss (s : State) : State := s.updCounters (fun c => { c with lookupMiss := c.lookupMiss + 1 })
def State.countAttach (s : State) : State := s.updCounters (fun c => { c with fillAttach := c.fillAttach + 1 })
def State.countBypass (s : State) : State := s.updCounters (fun c => { c with bypassFill := c.bypassFill + 1 })

/-! ### Hit (R5) -/

/-- The bytes of a way. -/
def Line.bytes : Line → List Byte
  | .valid _ _ d => d
  | _ => []

/-- A READ need hits: the way to the front, its bytes in range to the buffer, HAVE (R5, R35). -/
def State.hitRead (s : State) (r : Record) (i : Nat) (w : Fin 4) : State :=
  let set := setIndex (r.lineOf i)
  let data := ((s.set set).ways[w]).bytes
  ((s.updSet set (fun c => c.toFront w)).updRecord r.id
    (fun q => (q.copyLine i data).setNeed i .haveLine)).countHit

/-- A PIN need hits: the way to the front, pinned if clear (and the claim for it removed, R12), HAVE, counted (R5). -/
def State.hitPin (s : State) (r : Record) (i : Nat) (w : Fin 4) : State :=
  let set := setIndex (r.lineOf i)
  let already := ((s.set set).ways[w]).pinned
  ((s.updSet set (fun c =>
      let c := (c.toFront w).setPinned w true
      { c with claims := if already then c.claims else c.claims - 1 })).updRecord r.id
    (fun q => { q.setNeed i .haveLine with pinnedCount := q.pinnedCount + 1 })).countHit

/-! ### Miss (R32, R33, R43, R44) -/

/-- A need fails: the record's result is FLASH_FAULT, a PIN's claim for the line is removed (R38). -/
def State.failNeed (s : State) (w : Waiter) : State :=
  match s.record w.id with
  | none => s
  | some r =>
    let s := s.updRecord w.id (fun q => { q.setNeed w.index .failed with status := .flashFault })
    match r.kind with
    | .read => s
    | .pin => s.dropClaim (r.lineOf w.index)

/-- Attach a need to the entry of its line (R43). -/
def State.attach (s : State) (line : Nat) (w : Waiter) : State :=
  ((s.updFill line (fun f => { f with waiters := f.waiters ++ [w] })).setNeed w .waitFill).countAttach

/-- Every need of the slot queue for the entry's line is gathered into it, in slot-queue order (R44). -/
def State.gather (s : State) (line : Nat) : State :=
  (s.slotQueue.filter (fun w => s.waiterLine w = some line)).foldl (fun t w => t.attach line w) s

/-- Create an entry with the creating need as its one waiter, then gather (R44). -/
def State.createFill (s : State) (line : Nat) (way : Option (Fin 4)) (w : Waiter) : State :=
  let f : Fill := { line := line, way := way, doomed := false, phase := .waiting, waiters := [w] }
  (({ s with fills := s.fills ++ [f] }).setNeed w .waitFill).gather line

/-- A need without an entry for its line while an entry is free: ask the cache for a way (R44). -/
def State.missCreate (s : State) (r : Record) (w : Waiter) : State :=
  let line := r.lineOf w.index
  let set := setIndex line
  match (s.set set).victim with
  | some v => (s.updSet set (fun c => c.allocate v (cacheTag line))).createFill line (some v) w
  | none =>
    match r.kind with
    | .read => (s.createFill line none w).countBypass
    | .pin => s.setNeed w .waitWay

/-- A miss: it fails in FAULTED; else it attaches, creates an entry or waits for a slot (R32, R33, R43). -/
def State.missNeed (s : State) (r : Record) (w : Waiter) : State :=
  let s := s.countMiss
  let line := r.lineOf w.index
  if s.fsq.state = .faulted then s.failNeed w
  else if (s.fill line).isSome then s.attach line w
  else if s.fillFree then s.missCreate r w
  else s.setNeed w .waitSlot

/-- One lookup for one need (R5). -/
def State.lookup (s : State) (w : Waiter) : State :=
  match s.record w.id with
  | none => s
  | some r =>
    let line := r.lineOf w.index
    match (s.set (setIndex line)).hit (cacheTag line) with
    | some v =>
      match r.kind with
      | .read => s.hitRead r w.index v
      | .pin => s.hitPin r w.index v
    | none => s.missNeed r w

/-- The lookups a record makes at one time, in ascending line index (R5). -/
def State.lookups (s : State) (id : RecordId) (is : List Nat) : State :=
  is.foldl (fun t i => t.lookup { id := id, index := i }) s

/-! ### Completion (R27, R36, R37) -/

/-- The reply of a record that is COMPLETE: a READ's data with OK and nothing otherwise, a PIN's count. -/
def Record.reply (r : Record) : Message :=
  match r.kind with
  | .read => replyMessage .read r.tag r.status (if r.status = .ok then r.gathered else [])
  | .pin => replyMessage .pin r.tag r.status (leBytes 2 r.pinnedCount)

/-- The record has its outcome: a READ with a failed need or with every need HAVE; a PIN with every need settled. -/
def Record.isComplete (r : Record) : Bool :=
  match r.kind with
  | .read => r.needs.any (fun n => n = .failed) || r.needs.all (fun n => n = .haveLine)
  | .pin => r.needs.all (fun n => n = .haveLine || n = .failed)

/-- Entering COMPLETE: other needs are withdrawn, the record is freed, the reply is placed (R27, R36, R55). -/
def State.complete (s : State) (r : Record) : State :=
  let s := s.withdraw r.id
  ({ s with records := s.records.filter (fun q => q.id ≠ r.id) }).place r.link r.session r.reply

/-- Complete the record if it has its outcome. -/
def State.settle (s : State) (id : RecordId) : State :=
  match s.record id with
  | none => s
  | some r => if r.isComplete then s.complete r else s

/-! ### Parking, release and return to lookup (R26, R85, R87) -/

/-- A READ parks: its needs that are not HAVE become WAIT_RELEASE and are withdrawn (R85). -/
def State.park (s : State) (id : RecordId) : State :=
  (s.updRecord id (fun r =>
    { r with state := .parked
             needs := r.needs.map (fun n => if n = .haveLine then .haveLine else .waitRelease) })).withdraw id

/-- A need returns to lookup: a READ that overlaps a hold parks, else the lookup is made (R53, R85). -/
def State.returnToLookup (s : State) (w : Waiter) : State :=
  match s.record w.id with
  | none => s
  | some r =>
    if r.kind = .read && s.overlapsHold r.range then s.park w.id
    else (s.lookup w).settle w.id

/-- A PARKED record is released: ACTIVE, and each need that is not HAVE is looked up (R87). -/
def State.release (s : State) (id : RecordId) : State :=
  match s.record id with
  | none => s
  | some r =>
    ((s.updRecord id (fun q => { q with state := .active })).lookups id (r.indexed .waitRelease)).settle id

/-- One step of the re-examination: release the record if it is PARKED and no hold overlaps its range. -/
def State.reexamineOne (s : State) (id : RecordId) : State :=
  match s.record id with
  | none => s
  | some r => if r.state = .parked && !s.overlapsHold r.range then s.release id else s

/-- At the end of a hold every PARKED record is re-examined in acceptance order (R87). -/
def State.reexamine (s : State) : State :=
  ((s.records.filter (fun r => r.state = .parked)).map Record.id).foldl State.reexamineOne s

/-! ### The end of a Fill Table entry (R50 to R54) -/

/-- A waiter receives the line: a READ its bytes, a PIN its count; the PIN's claim passes to the pin (R9, R51). -/
def State.deliver (s : State) (data : List Byte) (w : Waiter) : State :=
  match s.record w.id with
  | none => s
  | some r =>
    match r.kind with
    | .read =>
      (s.updRecord w.id (fun q => (q.copyLine w.index data).setNeed w.index .haveLine)).settle w.id
    | .pin =>
      ((s.dropClaim (r.lineOf w.index)).updRecord w.id
        (fun q => { q.setNeed w.index .haveLine with pinnedCount := q.pinnedCount + 1 })).settle w.id

/-- A waiter of a bypass arrival: a READ receives the bytes, a PIN need returns to lookup (R52). -/
def State.deliverBypass (s : State) (data : List Byte) (w : Waiter) : State :=
  match s.record w.id with
  | none => s
  | some r =>
    match r.kind with
    | .read => s.deliver data w
    | .pin => s.returnToLookup w

/-- A waiter of a failed entry (R54). -/
def State.failWaiter (s : State) (w : Waiter) : State := (s.failNeed w).settle w.id

/-- A waiter of the entry is a PIN record (R9). -/
def State.pinWaits (s : State) (f : Fill) : Bool :=
  f.waiters.any (fun w => match s.record w.id with
    | some r => r.kind = .pin
    | none => false)

/-- Hand a free entry to the slot queue: the first needs return to lookup until one creates an entry, no entry is
free or the queue is empty (R48). -/
def handSlots : List Waiter → State → State
  | [], s => s
  | w :: ws, s =>
    if s.fillFree && s.needIs w .waitSlot then
      let t := s.returnToLookup w
      if s.fills.length < t.fills.length then t else handSlots ws t
    else handSlots ws s

/-- The WAIT_WAY needs whose line lies in a set, in acceptance order, then by line index (R33). -/
def State.wayWaiters (s : State) (set : Fin 128) : List Waiter :=
  (s.needsIn .waitWay).filter (fun w => (s.waiterLine w).map setIndex = some set)

/-- One retry of a WAIT_WAY need (R33). -/
def State.retryWay (s : State) (w : Waiter) : State :=
  if s.needIs w .waitWay then s.returnToLookup w else s

/-- Steps 4 and 5 of an end: slot handing, then way retries (R50). -/
def State.afterEnd (s : State) (line : Nat) : State :=
  let s := handSlots s.slotQueue s
  (s.wayWaiters (setIndex line)).foldl State.retryWay s

/-- Step 1 for an entry that ends without install: its way becomes INVALID, to the back (R10). -/
def State.releaseWay (s : State) (f : Fill) : State :=
  match f.way with
  | none => s
  | some v => s.updSet (setIndex f.line) (fun c => c.drop v)

/-- An entry's transaction has brought its bytes: normal, bypass or doomed arrival by its flags (R50 to R53). -/
def State.arrive (s : State) (f : Fill) (data : List Byte) : State :=
  if f.doomed then
    (f.waiters.foldl State.returnToLookup ((s.releaseWay f).removeFill f.line)).afterEnd f.line
  else
    match f.way with
    | some v =>
      let pinned := s.pinWaits f
      let s := s.updSet (setIndex f.line) (fun c => c.install v (cacheTag f.line) pinned data)
      (f.waiters.foldl (fun t w => t.deliver data w) (s.removeFill f.line)).afterEnd f.line
    | none =>
      (f.waiters.foldl (fun t w => t.deliverBypass data w) (s.removeFill f.line)).afterEnd f.line

/-- The entry of a line ends failed (R54). -/
def State.failFill (s : State) (line : Nat) : State :=
  match s.fill line with
  | none => s
  | some f => (f.waiters.foldl State.failWaiter ((s.releaseWay f).removeFill line)).afterEnd line

/-- One waiting need fails at entry to FAULTED, if it still waits (R56). -/
def State.failIfWaiting (n : NeedState) (s : State) (w : Waiter) : State :=
  if s.needIs w n then s.failWaiter w else s

/-- At entry to FAULTED: the slot queue fails, then the WAIT_WAY needs, then the entries in order of creation (R56). -/
def State.failFills (s : State) : State :=
  let s := s.slotQueue.foldl (State.failIfWaiting .waitSlot) s
  let s := (s.needsIn .waitWay).foldl (State.failIfWaiting .waitWay) s
  (s.fills.map Fill.line).foldl State.failFill s

end Sys2Proof.Machine
end

