-- ==== Sys2Proof/Machine/Waiting.lean ====
section
/-! DEFINITION. Which frame a link takes, and the RESET_FLASH that waits next in the queue of commands: it is of the same
instant as the event that is taken (R112, R143, log 30). -/

namespace Sys2Proof.Machine

/-! ### The frame that a link takes (R154, R155, R157) -/

/-- The bytes in reception are the given frame's first bytes, or all of them. -/
def ofFrame (frame buffer : List Byte) : Bool := frame.take buffer.length = buffer

/-- The bytes in reception begin the given frame and more of it is to come. -/
def beginsFrame (buffer frame : List Byte) : Bool := ofFrame frame buffer && buffer.length < frame.length

/-- No link A transaction is in progress, or the first byte of it is not complete. -/
def SpiTransaction.beforeSelector : SpiTransaction → Bool
  | .none => true
  | .selected _ => true
  | _ => false

/-- A link A frame write is in progress: its selector has been taken and its bytes are received (R155). -/
def State.receivingA (s : State) : Bool := s.spi.transaction = .writing && s.linkA.receiver = .receiving

/-- A frame that goes on to its end now is taken. On link A its selector comes while the link is ready, or the bytes in
reception are its first ones (R154, R155); on link B it begins while the link is ready, or the bytes in reception begin it
(R157). -/
def State.takes (s : State) (l : Link) (frame : List Byte) : Bool :=
  !s.pins.rstAsserted &&
  match l with
  | .a => (s.spi.transaction.beforeSelector && s.ready .a) || (s.receivingA && ofFrame frame s.linkA.buffer)
  | .b => (s.linkB.receiver = .idle && s.ready .b) ||
      (s.linkB.receiver = .receiving && beginsFrame s.linkB.buffer frame)

/-! ### The RESET_FLASH of the same instant -/

/-- A RESET_FLASH frame that comes to its end on a link now is taken and accepted (R142). -/
def State.acceptsReset (s : State) (l : Link) (tag : Byte) : Bool :=
  s.takes l (requestFrame (kindCode .resetFlash) tag []) && (s.link l).isOpen

/-- A byte that comes in on link B now is the last one of a RESET_FLASH frame that is taken and accepted. -/
def State.lastByteOfReset (s : State) (b : Byte) : Bool :=
  !s.pins.rstAsserted && s.linkB.receiver = .receiving && s.linkB.isOpen &&
  s.linkB.buffer ++ [b] = requestFrame (kindCode .resetFlash) (byteAt s.linkB.buffer 4) []

/-- The link of the RESET_FLASH that waits next in the queue as an event is taken, and is accepted: it is of the instant of
that event (log 30). -/
def State.resetNext (s : State) : Option Link :=
  match s.pending with
  | .resetFlash .a tag [] :: _ => if s.acceptsReset .a tag then some .a else none
  | .resetFlash .b tag [] :: _ => if s.acceptsReset .b tag then some .b else none
  | .linkBByteReceived b :: _ => if s.lastByteOfReset b then some .b else none
  | _ => none

end Sys2Proof.Machine
end

