-- ==== Sys2Proof/Machine/Sequence.lean ====
section
/-! DEFINITION. Shared operations of the job queue and of the flash sequencer: the end of a job, arbitration, running
a job, suspension, recovery, start-up and the resets (spec/04, 06 to 08). -/

namespace Sys2Proof.Machine

/-! ### Replies that were put off (R115, R139, R140) -/

/-- The reply of a SET_PROFILE when its profile is applied or discarded; none once its session has ended (R115). -/
def State.answerProfile (s : State) (p : PendingProfile) (st : Status) : State :=
  if p.muted then s else s.place p.link p.session (replyMessage .setProfile p.tag st [])

/-- The reply of one RESET_FLASH at the end of recovery; none once its session has ended (R139). -/
def answerReset (st : Status) (s : State) (q : ResetRequest) : State :=
  if q.muted then s else s.place q.link q.session (replyMessage .resetFlash q.tag st [])

/-- Every request of the reset request list is answered, in list order; the list becomes empty (R139, R140). -/
def State.answerResets (s : State) (st : Status) : State :=
  (s.fsq.resetRequests.foldl (answerReset st) s).updFsq (fun q => { q with resetRequests := [] })

/-! ### The end of a job (R69 to R71, R75) -/

/-- An entry is appended; of more than 8 the oldest goes (R75). -/
def appendHistory (h : List HistoryEntry) (e : HistoryEntry) : List HistoryEntry :=
  if h.length < historyLimit then h ++ [e] else h.drop (h.length + 1 - historyLimit) ++ [e]

/-- The counter of an outcome (R70). -/
def Counters.countJob (c : Counters) (o : Status) : Counters :=
  match o with
  | .ok => { c with jobOk := c.jobOk + 1 }
  | .cancelled => c
  | _ => { c with jobFailed := c.jobFailed + 1 }

/-- The history entry of an ended job (R75). -/
def Job.entry (j : Job) (o : Status) : HistoryEntry :=
  { id := j.id, kind := j.kind, outcome := o, suspendCount := j.suspendCount, busyTime := j.busyTime }

/-- Free the staging buffer a job holds (R61). -/
def State.freeStaging (s : State) (j : Job) : State :=
  match j.staging with
  | none => s
  | some b => { s with staging := s.staging.set b none }

/-- Place the JOB_DONE notice if the notice flag is DELIVER (R71). -/
def State.notifyJob (s : State) (j : Job) (o : Status) : State :=
  if j.deliver then s.place j.origin j.session (jobDoneNotice j o) else s

/-- The job at a place of the queue ends with an outcome: the seven steps of R69. -/
def State.endJob (s : State) (place : Nat) (o : Status) : State :=
  match s.jq.jobs[place]? with
  | none => s
  | some j0 =>
    let j : Job := { j0 with outcome := some o }
    let s := { s with jq := { s.jq with jobs := s.jq.jobs.eraseIdx place } }
    let s := if place = 0 then s.updFsq (fun q => { q with burst := 0 }) else s
    let s := s.freeStaging j
    let s := { s with jq := { s.jq with history := appendHistory s.jq.history (j.entry (j.outcome.getD o)) } }
    let s := s.updCounters (fun c => c.countJob o)
    let s := s.notifyJob j o
    match j.range with
    | none => s
    | some _ => s.reexamine

/-! ### Arbitration (R100 to R104) -/

/-- The pending profile becomes active and its reply is placed (R115). -/
def State.applyProfile (s : State) : State :=
  match s.fsq.pendingProfile with
  | none => s
  | some p =>
    (s.updFsq (fun q => { q with active := p.profile, pendingProfile := none })).answerProfile p .ok

/-- The descriptor transaction of a RAW job (R107). -/
def State.descriptor (s : State) (r : RawJob) : Transaction :=
  { use := .descriptor, command := r.command,
    address := match r.address with
      | some a => s.addressBytes a
      | none => [],
    dataOut := r.dataOut, dummy := r.dummy, dataIn := r.dataInCount, lanes := 1 }

/-- The transaction after the write-enable, or the first one of a RAW job without it (R104 to R107). -/
def State.mainTransaction (s : State) (j : Job) : Transaction :=
  let base := (j.range.map Range.base).getD 0
  match j.kind with
  | .program =>
    { use := .program, command := s.fsq.active.programCommand, address := s.addressBytes base,
      dataOut := match j.staging with
        | some b => s.staging[b].getD []
        | none => [],
      dummy := 0, dataIn := 0, lanes := 1 }
  | .eraseSector =>
    { use := .erase, command := s.fsq.active.sectorErase, address := s.addressBytes base, dataOut := [],
      dummy := 0, dataIn := 0, lanes := 1 }
  | .eraseBlock =>
    { use := .erase, command := s.fsq.active.blockErase, address := s.addressBytes base, dataOut := [],
      dummy := 0, dataIn := 0, lanes := 1 }
  | .raw =>
    match j.raw with
    | some r => s.descriptor r
    | none => oneByte .descriptor 0

/-- The job begins with a write-enable (R104). -/
def Job.writeEnableFirst (j : Job) : Bool :=
  match j.raw with
  | some r => r.writeEnableFirst
  | none => true

/-- The first transaction of a job (R104). -/
def State.firstTransaction (s : State) (j : Job) : Transaction :=
  if j.writeEnableFirst then oneByte .writeEnable s.fsq.active.writeEnable else s.mainTransaction j

/-- The head job is started (R104); the burst counter becomes 0 (R101). -/
def State.startJob (s : State) (j : Job) : State :=
  ((s.setPhase .issue).updFsq (fun q => { q with state := .job, burst := 0 })).begin (s.firstTransaction j)

/-- An entry's line read is begun: its phase becomes TRANSFER (R46, R102). -/
def State.beginFill (s : State) (f : Fill) : State :=
  (s.updFill f.line (fun g => { g with phase := .transfer })).begin
    (s.lineRead (.fillRead f.line) f.line lineSize)

/-- Serve a fill in an arbitration: READING, and the burst counter rises if a QUEUED job is head (R101). -/
def State.serveFill (s : State) (f : Fill) : State :=
  (s.beginFill f).updFsq (fun q =>
    { q with state := .reading, burst := if s.headQueued then q.burst + 1 else q.burst })

/-- Steps 3 and 4 of R101: serve the oldest WAITING entry, or idle. -/
def State.serveOldest (s : State) : State :=
  match s.oldestWaiting with
  | some f => s.serveFill f
  | none => s

/-- Steps 2 to 4 of R101: start the head job, serve the oldest WAITING entry, or idle. -/
def State.choose (s : State) : State :=
  match s.head with
  | some j =>
    if j.phase.isNone && (s.oldestWaiting.isNone || s.fsq.burst = burstLimit) then s.startJob j else s.serveOldest
  | none => s.serveOldest

/-- One arbitration (R101): a pending profile is applied first, and FSQ arbitrates again. -/
def State.arbitrate (s : State) : State := (s.applyProfile).choose

/-- FSQ enters READY and arbitrates (R100). -/
def State.enterReady (s : State) : State := (s.setFlash .ready).arbitrate

/-! ### Suspension (R122 to R128) -/

/-- A suspension begins (R124). -/
def State.beginSuspension (s : State) : State :=
  ((s.setPhase .suspending).setFlash .suspending).begin (oneByte .suspendCommand s.fsq.active.suspendCommand)

/-- The resume command is begun; phase and state stay SUSPENDED (R128). -/
def State.beginResume (s : State) : State := s.begin (oneByte .resume s.fsq.active.resumeCommand)

/-- FSQ's decision in SUSPENDED: serve the oldest WAITING entry within the budget, or resume (R127). -/
def State.suspendedDecision (s : State) : State :=
  if s.fsq.pendingProfile.isSome then s.beginResume
  else if s.fsq.active.fillBudget ≤ s.fsq.fillsServed then s.beginResume
  else match s.oldestWaiting with
    | some f => (s.beginFill f).updFsq (fun q => { q with fillsServed := q.fillsServed + 1 })
    | none => s.beginResume

/-- What FSQ does of itself after an event that gives it work while no transaction is in progress: in READY it
arbitrates (R100), between two status reads of an erase it evaluates R122 (R123), in SUSPENDED with a profile pending
it resumes (R128). -/
def State.kick (s : State) : State :=
  if s.fsq.port.isSome then s
  else match s.fsq.state with
    | .ready => s.arbitrate
    | .job => if s.suspensionDue then s.beginSuspension else s
    | .suspended => s.suspendedDecision
    | _ => s

/-! ### Recovery (R134 to R140) -/

/-- The attempt's first reset command (R135). -/
def State.beginReset (s : State) : State := s.begin (oneByte .recoveryReset1 s.fsq.active.firstReset)

/-- FSQ enters RECOVERING (R135). -/
def State.enterRecovery (s : State) (origin : RecoveryOrigin) (probe : Bool) : State :=
  (s.updFsq (fun q =>
    { q with state := .recovering, cause := .none, attempt := 1, recoveryTime := 0, probe := probe,
             origin := origin, resetDue := false })).beginReset

/-- A RESET_FLASH restarts the sequence; timer and origin stay (R137). -/
def State.restartRecovery (s : State) : State :=
  (s.updFsq (fun q => { q with attempt := 1, probe := true, resetDue := false })).beginReset

/-- Recovery ends in READY (R139). A RESET_FLASH of the same instant finds FSQ READY (R143): before it FSQ begins nothing
(log 30). -/
def State.recoveryReady (s : State) : State :=
  let s := s.setFlash .ready
  let s := s.answerResets .ok
  let s := if s.fsq.origin = .faulted then s.giveFlashState else s
  if s.resetNext.isSome then s.applyProfile else s.arbitrate

/-- Every job of the queue ends with FLASH_FAULT, in queue order (R77, R140). -/
def endAllJobs : List Job → State → State
  | [], s => s
  | _ :: js, s => endAllJobs js (s.endJob 0 .flashFault)

/-- Recovery ends in FAULTED: the six steps of R140. -/
def State.recoveryFaulted (s : State) (cause : FaultCause) : State :=
  let s := s.updFsq (fun q => { q with state := .faulted, cause := cause, resetDue := false, wait := .none })
  let s := s.failFills
  let s := endAllJobs s.jq.jobs s
  let s := match s.fsq.pendingProfile with
    | none => s
    | some p => (s.updFsq (fun q => { q with pendingProfile := none })).answerProfile p .flashFault
  let s := s.answerResets .flashFault
  s.giveFlashState

/-! ### Running a job (R104 to R111) -/

/-- The RUNNING job ends and FSQ returns to READY (R111). A RESET_FLASH of the same instant finds no RUNNING job (R112):
before it FSQ starts none (log 30). -/
def State.finishJob (s : State) (o : Status) : State :=
  let s := (s.endJob 0 o).setFlash .ready
  if s.resetNext.isSome then s.applyProfile.serveOldest else s.arbitrate

/-- The RUNNING job times out and FSQ recovers, probe flag clear (R108, R126, R134). -/
def State.timeOutJob (s : State) : State := (s.endJob 0 .flashTimeout).enterRecovery .job false

/-- A RUNNING job, if there is one, ends with ABORTED (R77). -/
def State.abortRunning (s : State) : State := if s.running.isSome then s.endJob 0 .aborted else s

/-- A RESET_FLASH takes effect, with no transaction in progress (R129, R137, R142). -/
def State.resetTakesEffect (s : State) : State :=
  match s.fsq.state with
  | .recovering => s.restartRecovery
  | .faulted => s.enterRecovery .faulted true
  | _ => s.abortRunning.enterRecovery .job true

/-- A status read of the busy period is begun (R108). -/
def State.beginStatusRead (s : State) : State := s.begin (readBytes .statusRead s.fsq.active.statusCommand 1)

/-- The phase becomes BUSY after the last issue transaction; the segment time becomes 0 (R108, R121). -/
def State.enterBusy (s : State) : State :=
  ((s.setPhase .busy).updFsq (fun q => { q with segTime := 0 })).beginStatusRead

/-- No failure is reported: a PROGRAM with verify is read back, every other job ends OK (R109, R110). -/
def State.checkPassed (s : State) (j : Job) : State :=
  if j.kind = .program && j.verify then
    let r := j.range.getD { base := 0, length := 0 }
    ((s.setPhase .verify).setFlash .reading).begin (s.lineRead .verifyRead r.base r.length)
  else s.finishJob .ok

/-- The busy period has ended (R107, R109). -/
def State.busyEnded (s : State) (j : Job) : State :=
  if j.kind = .raw then s.finishJob .ok
  else if s.fsq.active.errorStatus = 0 then s.checkPassed j
  else s.begin (readBytes .errorStatusRead s.fsq.active.errorStatus 1)

/-- The outcome of a reported failure (R109). -/
def failureOutcome (j : Job) : Status := if j.kind = .program then .programFailed else .eraseFailed

/-- The fail mask a job's kind consults (R109). -/
def failMask (q : Profile) (j : Job) : Byte := if j.kind = .program then q.programFail else q.eraseFail

/-! ### Start-up (R118 to R120) -/

/-- A start-up status read is begun (R118). -/
def State.beginStartupRead (s : State) : State :=
  s.begin (readBytes .startupStatusRead s.fsq.active.statusCommand 1)

/-- START to both holders (R120). -/
def State.giveStart (s : State) : State :=
  (s.giveNotice .a (startNotice s.fsq)).giveNotice .b (startNotice s.fsq)

/-- Start-up ends in READY: START notices, then the first arbitration (R119, R120). -/
def State.startupReady (s : State) : State :=
  ((s.updFsq (fun q => { q with state := .ready, wait := .none })).giveStart).arbitrate

/-- Start-up ends in FAULTED; it ends nothing (R119, R140). -/
def State.startupFaulted (s : State) (cause : FaultCause) : State :=
  (s.updFsq (fun q => { q with state := .faulted, cause := cause, wait := .none })).giveStart

/-! ### Resets (R20, R40, R57, R78, R117, R151, R153, R167) -/

/-- A link interface and its reply queue after a reset. The counters are cleared with them (R153, R167). -/
def clearedLink : LinkState := .reset

/-- A link A transaction that a reset meets goes on to its rise with 0x00 shifted out and its bytes ignored (R167,
R168). -/
def SpiPort.cutOff (p : SpiPort) : SpiPort :=
  match p.transaction with
  | .none => p
  | _ => { p with transaction := .ignored }

/-- Every block but FSQ, the Protection Table and the pins is cleared. -/
def State.clearBlocks (s : State) : State :=
  { s with
    linkA := clearedLink, linkB := clearedLink, spi := s.spi.cutOff, uart := { s.uart with tx := none },
    records := [], cache := Vector.replicate 128 .reset, fills := [], jq := .reset,
    staging := Vector.replicate 4 none, counters := .zero }

/-- FSQ enters STARTING: straps sampled, start cause, defaults, counters 0 (R117, R176). -/
def State.enterStarting (s : State) (cause : StartCause) : State :=
  { s with
    fsq := Fsq.starting cause s.pins.cap, uart := { s.uart with baud := s.pins.baud }, counters := .zero,
    linkA := { s.linkA with framesTaken := 0, framesRejected := 0, overruns := 0 },
    linkB := { s.linkB with framesTaken := 0, framesRejected := 0, overruns := 0 } }

/-- The Protection Table after a part reset: locked entries stay where they are (R151). -/
def keepLocked (e : Option ProtectEntry) : Option ProtectEntry :=
  match e with
  | some x => if x.locked then some x else none
  | none => none

/-- The part reset (R167). -/
def State.partReset (s : State) : State :=
  let s := s.clearBlocks
  { s with protection := s.protection.map keepLocked }.enterStarting .resetPart

end Sys2Proof.Machine
end

