-- ==== Sys2Proof/Machine/Frames.lean ====
section
/-! DEFINITION. Taking a frame on a link and answering it (R153 to R161, R169 to R172). -/

namespace Sys2Proof.Machine

/-- What becomes of a frame that a partner sends: it is taken, lost (an overrun, or ignored), or it cannot arise. -/
inductive Reception where
  | taken (s : State)
  | lost (s : State)
  | cannot (f : Fault)

/-- A frame is taken: its slot is reserved, FRAMES_TAKEN rises, the receiver is IDLE (R159). -/
def LinkState.take (k : LinkState) : LinkState :=
  { k.reserve with framesTaken := k.framesTaken + 1, receiver := .idle, buffer := [], interByte := 0 }

def State.take (s : State) (l : Link) : State := s.updLink l LinkState.take

/-- OVERRUNS rises (R155, R157). -/
def LinkState.overrun (k : LinkState) : LinkState := { k with overruns := k.overruns + 1 }

/-- An overrun on link B: DISCARDING, and the inter-byte timer starts (R157). -/
def LinkState.overrunB (k : LinkState) : LinkState :=
  { k.overrun with receiver := .discarding, interByte := 0 }

/-! ### Link A transactions (R154, R155, R168) -/

/-- CS_A_N falls: the link status byte is taken; under RST_N the transaction is ignored. -/
def State.fallA (s : State) : State :=
  { s with spi :=
    { transaction := if s.pins.rstAsserted then .ignored else .selected s.linkStatusByte, sdo := [] } }

/-- The transaction in progress, begun here if none is. -/
def State.openA (s : State) : State := if s.spi.transaction = .none then s.fallA else s

/-- The transaction is turned into another; `sdo` stays. -/
def State.turnA (s : State) (x : SpiTransaction) : State := { s with spi := { s.spi with transaction := x } }

/-- CS_A_N rises. -/
def State.riseA (s : State) : State := s.turnA .none

/-- The first byte is complete: the status byte is out and the transaction is the one selected. -/
def State.selectA (s : State) (status : Byte) (x : SpiTransaction) : State :=
  { s with spi := { transaction := x, sdo := [status] } }

/-- LEN is no frame's (R169). -/
def lenBad (len : Nat) : Bool := maxLen < len || len < 2

/-- What the receive buffer keeps of a frame's bytes: none after a bad LEN, none after the last CRC byte (R155). -/
def keptBytes (bytes : List Byte) : List Byte :=
  if bytes.length < 3 then bytes
  else if lenBad (field bytes 1 2) then bytes.take 3
  else bytes.take (field bytes 1 2 + 5)

/-- The second LEN byte has been taken with a bad LEN (R155). -/
def LinkState.holdsBadLen (k : LinkState) : Bool := 3 ≤ k.buffer.length && lenBad (field k.buffer 1 2)

/-- RECEIVING, with the given bytes in the receive buffer (R155). -/
def LinkState.receivingBytes (bytes : List Byte) (k : LinkState) : LinkState :=
  { k with receiver := .receiving, buffer := keptBytes bytes }

/-- The first bytes of a frame write come in where none has yet: at the selector readiness is examined (R155). -/
def State.beginWriteA (s : State) (status : Byte) (bytes : List Byte) : State :=
  if bytes = [] then s
  else
    let t := s.selectA status .writing
    if s.ready .a then t.updLink .a (LinkState.receivingBytes bytes) else t

/-- Bytes of a frame write come in, and CS_A_N stays asserted. `bytes` is the frame so far, given the bytes in the
receive buffer; none where those begin no such frame. -/
def State.shiftInA (s : State) (bytes : List Byte → Option (List Byte)) : Host.Outcome State Fault Refusal :=
  let t := s.openA
  match t.spi.transaction with
  | .selected status => .next (t.beginWriteA status ((bytes []).getD []))
  | .writing =>
    if t.linkA.receiver = .receiving then
      match bytes t.linkA.buffer with
      | some x => .next (t.updLink .a (LinkState.receivingBytes x))
      | none => .fault .otherFrameInReception
    else .next t
  | .fetching _ _ _ => .fault .linkAInTransaction
  | _ => .next t

/-- A frame's first `n` bytes, where more of them are not in already. -/
def upTo (frame : List Byte) (n : Nat) (buffer : List Byte) : Option (List Byte) :=
  if ofFrame frame buffer then some (frame.take (max n buffer.length)) else none

/-- A frame write on link A goes on from where it stands through the rise of CS_A_N; `fits` says which bytes already in
the receive buffer can begin it (R154, R155, R168). -/
def State.receiveA (s : State) (fits : List Byte → Bool) : Reception :=
  let t := s.openA
  match t.spi.transaction with
  | .selected status =>
    if s.ready .a then .taken ((t.selectA status .none).take .a)
    else .lost ((t.selectA status .none).updLink .a LinkState.overrun)
  | .writing =>
    if t.linkA.receiver = .receiving then
      if fits t.linkA.buffer then .taken (t.riseA.take .a) else .cannot .otherFrameInReception
    else .lost (t.riseA.updLink .a LinkState.overrun)
  | .fetching _ _ _ => .cannot .linkAInTransaction
  | _ => .lost t.riseA

/-- The bytes of a frame that link B has not received yet arrive (R157, R168, log 2). -/
def State.receiveB (s : State) (fits : List Byte → Bool) : Reception :=
  if s.pins.rstAsserted then .lost s
  else match s.linkB.receiver with
    | .idle => if s.ready .b then .taken (s.take .b) else .lost (s.updLink .b LinkState.overrunB)
    | .discarding => .lost (s.updLink .b (fun k => { k with interByte := 0 }))
    | .receiving => if fits s.linkB.buffer then .taken (s.take .b) else .cannot .otherFrameInReception

/-- A frame arrives on a link to its end. -/
def State.receive (s : State) (l : Link) (frame : List Byte) : Reception :=
  match l with
  | .a => s.receiveA (ofFrame frame)
  | .b => s.receiveB (fun buf => beginsFrame buf frame)

/-- A frame that is taken has an effect; a lost one has none beyond its loss. -/
def Reception.outcome (r : Reception) (act : State → State) : Host.Outcome State Fault Refusal :=
  match r with
  | .taken s => .next (act s)
  | .lost s => .next s
  | .cannot f => .fault f

/-- A FRAME_REJECT is placed with the reject count after its rise (R159). -/
def State.reject (s : State) (l : Link) (session : Byte) (r : RejectReason) : State :=
  let s := s.updLink l (fun k => { k with framesRejected := k.framesRejected + 1 })
  s.place l session (rejectNotice r (s.link l).framesRejected)

/-- A frame arrives: on link A in part, or to its end, and then the rest follows. -/
def State.arrival (s : State) (v : Arrival) (frame : List Byte)
    (ends : Link → Host.Outcome State Fault Refusal) : Host.Outcome State Fault Refusal :=
  match v with
  | .a => ends .a
  | .b => ends .b
  | .aUpTo n => s.shiftInA (upTo frame n)

/-- After a LENGTH reject link B's receiver discards until 2 ms are silent (R157). -/
def State.discardRest (s : State) (l : Link) : State :=
  match l with
  | .a => s
  | .b => s.updLink .b (fun k => { k with receiver := .discarding, interByte := 0 })

/-! ### Answering a request -/

/-- The payload of a reply with a status other than OK (Table 11-3). -/
def refusalPayload (k : Kind) (p : List Byte) : List Byte :=
  match k with
  | .pin => [0, 0]
  | .unpin => [0, 0]
  | .invalidate => [0, 0, 0, 0, 0]
  | .program => [0, 0]
  | .erase => [0, 0]
  | .raw => [0, 0]
  | .cancelJob => if p.length = 2 then p else [0, 0]
  | .queryJob => if p.length = 2 then p else [0, 0]
  | .protect => [0xFF]
  | .unprotect => if p.length = 1 then p else [0xFF]
  | _ => []

/-- The payload size of the kinds whose size is fixed (Table 11-3, R172). -/
def fixedSize : Kind → Option Nat
  | .nop => none
  | .program => none
  | .raw => none
  | .openSession => some 0
  | .closeSession => some 0
  | .getStatus => some 0
  | .getStats => some 1
  | .read => some 6
  | .pin => some 6
  | .unpin => some 8
  | .invalidate => some 8
  | .probeLine => some 2
  | .erase => some 5
  | .cancelJob => some 2
  | .queryJob => some 2
  | .setProfile => some 34
  | .getProfile => some 0
  | .resetFlash => some 0
  | .resetPart => some 0
  | .protect => some 10
  | .unprotect => some 1
  | .listProtect => some 0

/-- A request as taken: its link, the session number its slot is reserved under, its tag and payload. -/
structure Request where
  link : Link
  session : Byte
  tag : Byte
  payload : List Byte
  deriving DecidableEq, Repr

/-- The reply with OK. -/
def Request.accept (q : Request) (k : Kind) (payload : List Byte) (s : State) : State :=
  s.place q.link q.session (replyMessage k q.tag .ok payload)

/-- The reply with another status. -/
def Request.refuse (q : Request) (k : Kind) (st : Status) (s : State) : State :=
  s.place q.link q.session (replyMessage k q.tag st (refusalPayload k q.payload))

/-- The kinds that a CLOSED link answers (R159, step 4). -/
def needsSession (k : Kind) : Bool :=
  match k with
  | .openSession => false
  | .resetPart => false
  | _ => true

/-- The size is wrong for the kind (R172). -/
def wrongSize (k : Kind) (p : List Byte) : Bool :=
  match fixedSize k with
  | some n => p.length ≠ n
  | none => false

/-- Steps 4 and 5 of R159: the session, the payload size, then the request's own checks and acts. -/
def Request.serve (q : Request) (k : Kind) (body : Request → State → State) (s : State) : State :=
  if needsSession k && !(s.link q.link).isOpen then q.refuse k .notOpen s
  else if wrongSize k q.payload then q.refuse k .badField s
  else body q s

/-- The status of the first check that fails, if one does. -/
def firstFailure (checks : List (Bool × Status)) : Option Status := (checks.find? (fun c => c.1)).map (fun c => c.2)

/-- A request frame has arrived on a link to its end, and is answered. A payload too long for a frame makes its LEN bad
(R155, R157, R169; log 23). -/
def frameTaken (k : Kind) (body : Request → State → State) (l : Link) (tag : Byte) (p : List Byte) (s : State) :
    Host.Outcome State Fault Refusal :=
  let session := (s.link l).session
  let r := s.receive l (requestFrame (kindCode k) tag p)
  if maxLen < p.length + 2 then r.outcome (fun t => (t.reject l session .length).discardRest l)
  else r.outcome (fun t => ({ link := l, session := session, tag := tag, payload := p } : Request).serve k body t)

/-- A request frame of a kind arrives. -/
def requestArrives (k : Kind) (body : Request → State → State) (v : Arrival) (tag : Byte) (p : List Byte)
    (s : State) : Host.Outcome State Fault Refusal :=
  s.arrival v (requestFrame (kindCode k) tag p) (fun l => frameTaken k body l tag p s)

/-- After an event that may have created Fill Table entries: FSQ goes on if one was created (R100, R123). -/
def kickIfCreated (before after : State) : State :=
  if before.fills.length < after.fills.length then after.kick else after

end Sys2Proof.Machine
end

