-- ==== Sys2Proof/Machine/CacheRequests.lean ====
section
/-! DEFINITION. READ, PIN, UNPIN, INVALIDATE, PROBE_LINE (spec/01, 02). -/

namespace Sys2Proof.Machine

/-- The range of a payload that begins with a 4-byte base and a length of `n` bytes (Table 11-3). -/
def payloadRange (p : List Byte) (n : Nat) : Range := { base := field p 0 4, length := field p 4 n }

/-- The range is beyond capacity (R1). -/
def State.beyond (s : State) (r : Range) : Bool := s.capacity < r.base + r.length

/-- A new record (R29, R31): no need has been looked up yet. -/
def newRecord (q : Request) (kind : RecordKind) (r : Range) : Record :=
  { link := q.link, session := q.session, tag := q.tag, kind := kind, base := r.base, length := r.length,
    needs := List.replicate (lineCount r.base r.length) .waitRelease,
    buffer := match kind with
      | .read => List.replicate r.length none
      | .pin => [],
    state := .active, pinnedCount := 0, status := .ok }

/-- A record joins the end of the acceptance order (R25). -/
def State.addRecord (s : State) (r : Record) : State := { s with records := s.records ++ [r] }

/-- The tag is that of a record of the link in use (R24). -/
def State.tagInUse (s : State) (q : Request) : Bool := (s.record { link := q.link, tag := q.tag }).isSome

/-- All 12 records of the link are in use (R23). -/
def State.tableBusy (s : State) (l : Link) : Bool := recordLimit ≤ (s.recordsOf l).length

/-! ### READ (R28, R29) -/

/-- An accepted READ parks whole over a hold, or looks up its lines (R29). -/
def State.acceptRead (s : State) (q : Request) (r : Range) : State :=
  let rec0 := newRecord q .read r
  if s.overlapsHold r then s.addRecord { rec0 with state := .parked }
  else
    let t := ((s.addRecord rec0).lookups rec0.id (List.range rec0.needs.length)).settle rec0.id
    kickIfCreated s t

/-- The checks of R28, in order. -/
def readChecks (q : Request) (s : State) : List (Bool × Status) :=
  let r := payloadRange q.payload 2
  [(r.length = 0 || 256 < r.length, .badLength), (s.beyond r, .outOfRange), (s.tagInUse q, .tagInUse),
   (s.tableBusy q.link, .busy)]

def readBody (q : Request) (s : State) : State :=
  match firstFailure (readChecks q s) with
  | some st => q.refuse .read st s
  | none => s.acceptRead q (payloadRange q.payload 2)

def execRead (v : Arrival) (tag : Byte) (p : List Byte) (s : State) : Host.Outcome State Fault Refusal :=
  requestArrives .read readBody v tag p s

/-! ### PIN (R30, R31) -/

/-- The lines of a range that are not already pinned (R12, R30). -/
def State.unpinnedLines (s : State) (r : Range) : List Nat :=
  (spannedLines r.base r.length).filter (fun a => !s.linePinned a)

/-- Some set would hold more than 3 pinned ways and claims (R12, R30). -/
def State.pinLimitExceeded (s : State) (r : Range) : Bool :=
  let lines := s.unpinnedLines r
  (List.finRange 128).any (fun i =>
    pinLimit < (s.set i).pinnedWays + (s.set i).claims + (lines.filter (fun a => setIndex a = i)).length)

/-- An accepted PIN adds its claims, then looks up its lines (R31). -/
def State.acceptPin (s : State) (q : Request) (r : Range) : State :=
  let rec0 := newRecord q .pin r
  let t := (s.unpinnedLines r).foldl State.addClaim (s.addRecord rec0)
  let t := (t.lookups rec0.id (List.range rec0.needs.length)).settle rec0.id
  kickIfCreated s t

/-- The checks of R30, in order. -/
def pinChecks (q : Request) (s : State) : List (Bool × Status) :=
  let r := payloadRange q.payload 2
  [(r.length = 0 || 8192 < r.length, .badLength), (s.beyond r, .outOfRange), (s.tagInUse q, .tagInUse),
   (s.overlapsHold r, .rangeHeld), (s.overlapsPin r, .pinInProgress), (s.pinLimitExceeded r, .pinLimit),
   (s.tableBusy q.link, .busy)]

def pinBody (q : Request) (s : State) : State :=
  match firstFailure (pinChecks q s) with
  | some st => q.refuse .pin st s
  | none => s.acceptPin q (payloadRange q.payload 2)

def execPin (v : Arrival) (tag : Byte) (p : List Byte) (s : State) : Host.Outcome State Fault Refusal :=
  requestArrives .pin pinBody v tag p s

/-! ### UNPIN (R14, R15) -/

/-- The checks of R14, in order. -/
def unpinChecks (q : Request) (s : State) : List (Bool × Status) :=
  let r := payloadRange q.payload 4
  [(r.length = 0, .badLength), (s.beyond r, .outOfRange), (s.overlapsPin r, .pinInProgress)]

def unpinBody (q : Request) (s : State) : State :=
  match firstFailure (unpinChecks q s) with
  | some st => q.refuse .unpin st s
  | none =>
    let r := payloadRange q.payload 4
    let n := s.countWays (fun i c w => c.pinnedIn i r w)
    q.accept .unpin (leBytes 2 n) (s.mapSets (fun i c => c.unpin i r))

def execUnpin (v : Arrival) (tag : Byte) (p : List Byte) (s : State) : Host.Outcome State Fault Refusal :=
  requestArrives .unpin unpinBody v tag p s

/-! ### INVALIDATE (R16, R17) -/

/-- The checks of R16, in order. -/
def invalidateChecks (q : Request) (s : State) : List (Bool × Status) :=
  let r := payloadRange q.payload 4
  [(r.length = 0, .badLength), (s.beyond r, .outOfRange)]

def invalidateBody (q : Request) (s : State) : State :=
  match firstFailure (invalidateChecks q s) with
  | some st => q.refuse .invalidate st s
  | none =>
    let r := payloadRange q.payload 4
    let gone := s.countWays (fun i c w => c.discardable i r w)
    let skipped := s.countWays (fun i c w => c.pinnedIn i r w)
    let doomed := s.doomable r
    q.accept .invalidate (leBytes 2 gone ++ leBytes 2 skipped ++ leBytes 1 doomed) (s.clearRange r)

def execInvalidate (v : Arrival) (tag : Byte) (p : List Byte) (s : State) : Host.Outcome State Fault Refusal :=
  requestArrives .invalidate invalidateBody v tag p s

/-! ### PROBE_LINE (R19) -/

/-- The LINE RECORD of a way, 11 bytes (R19, Table 11-4). -/
def lineRecord (s : State) (i : Fin 128) (w : Fin 4) : List Byte :=
  let x := (s.set i).ways[w]
  let addr := match x with
    | .invalid => 0
    | y => wayLine i y.tag
  let bound := s.boundFill i w
  [x.code] ++ leBytes 2 x.tag ++ leBytes 4 addr ++ [flagByte x.pinned] ++
  leBytes 1 ((s.set i).recency.idxOf w) ++
  [flagByte bound.isSome, flagByte ((bound.map Fill.doomed).getD false)]

def probeBody (q : Request) (s : State) : State :=
  let i := field q.payload 0 1
  let w := field q.payload 1 1
  if hi : i < 128 then
    if hw : w < 4 then q.accept .probeLine (lineRecord s ⟨i, hi⟩ ⟨w, hw⟩) s
    else q.refuse .probeLine .badField s
  else q.refuse .probeLine .badField s

def execProbeLine (v : Arrival) (tag : Byte) (p : List Byte) (s : State) : Host.Outcome State Fault Refusal :=
  requestArrives .probeLine probeBody v tag p s

end Sys2Proof.Machine
end

