-- ==== Sys2Proof/Machine/FlashRequests.lean ====
section
/-! DEFINITION. SET_PROFILE, GET_PROFILE, RESET_FLASH (spec/06, 08). -/

namespace Sys2Proof.Machine

/-! ### SET_PROFILE (R113, R114) -/

/-- The pending profile of a request. -/
def pendingOf (q : Request) (x : Profile) : PendingProfile :=
  { profile := x, link := q.link, session := q.session, tag := q.tag, muted := false }

/-- A RESET_FLASH on the other link is of the instant of a request (log 28). -/
def State.resetNextBeside (s : State) (l : Link) : Bool := s.resetNext.any (fun m => m ≠ l)

/-- A profile becomes pending; its reply waits; FSQ goes on where it can (R100, R113, R128). In READY and idle that applies
it at once (R114), but for a RESET_FLASH of the same instant, through whose recovery it is pending (R143, log 28). -/
def State.pendProfile (s : State) (q : Request) (x : Profile) : State :=
  let t := s.updFsq (fun f => { f with pendingProfile := some (pendingOf q x) })
  if t.fsq.state = .ready ∧ t.resetNextBeside q.link = true then t else t.kick

def setProfileBody (q : Request) (s : State) : State :=
  match parseProfile q.payload with
  | none => q.refuse .setProfile .badField s
  | some x =>
    if s.fsq.pendingProfile.isSome then q.refuse .setProfile .profilePending s
    else if s.fsq.state = .faulted then q.refuse .setProfile .flashFault s
    else s.pendProfile q x

def execSetProfile (v : Arrival) (tag : Byte) (p : List Byte) (s : State) : Host.Outcome State Fault Refusal :=
  requestArrives .setProfile setProfileBody v tag p s

/-! ### GET_PROFILE (R116) -/

def getProfileBody (q : Request) (s : State) : State :=
  q.accept .getProfile (profileBytes s.fsq.active ++ [flagByte s.fsq.pendingProfile.isSome]) s

def execGetProfile (v : Arrival) (tag : Byte) (p : List Byte) (s : State) : Host.Outcome State Fault Refusal :=
  requestArrives .getProfile getProfileBody v tag p s

/-! ### RESET_FLASH (R137, R142) -/

/-- The request joins the reset request list. -/
def State.listReset (s : State) (q : Request) : State :=
  s.updFsq (fun f => { f with resetRequests := f.resetRequests ++
    [{ link := q.link, session := q.session, tag := q.tag, muted := false }] })

/-- It takes effect at once, or at the end of the transaction in progress (R94, R142). -/
def resetFlashBody (q : Request) (s : State) : State :=
  let s := s.listReset q
  if s.fsq.port.isSome then s.updFsq (fun f => { f with resetDue := true }) else s.resetTakesEffect

def execResetFlash (v : Arrival) (tag : Byte) (p : List Byte) (s : State) : Host.Outcome State Fault Refusal :=
  requestArrives .resetFlash resetFlashBody v tag p s

end Sys2Proof.Machine
end

