-- ==== Sys2Proof/Machine/JobRequests.lean ====
section
/-! DEFINITION. PROGRAM, ERASE, RAW, CANCEL_JOB, QUERY_JOB (spec/04, 09). -/

namespace Sys2Proof.Machine

/-! ### Acceptance checks 4 to 9 (R65, R150) -/

/-- An entry forbids a job (R150). RAW is asked for MODIFYING alone. -/
def ProtectEntry.forbids (e : ProtectEntry) (kind : JobKind) (r : Range) : Bool :=
  let region : Range := { base := e.base, length := e.length }
  match kind with
  | .program => e.mode = .noModify && shareByte region r
  | .eraseSector => shareByte region r
  | .eraseBlock => shareByte region r
  | .raw => true

/-- Some entry forbids the job (R150); a job without a range is not checked. -/
def State.protects (s : State) (kind : JobKind) (r : Option Range) : Bool :=
  match r with
  | none => false
  | some r => s.protection.toList.any (fun e => match e with
    | some x => x.forbids kind r
    | none => false)

/-- The range holds a pinned line or overlaps a PIN in progress (R65, check 6). -/
def State.pinsIn (s : State) (r : Option Range) : Bool :=
  match r with
  | none => false
  | some r => 0 < s.countWays (fun i c w => c.pinnedIn i r w) || s.overlapsPin r

/-- Checks 4 to 9 of R65, in order. -/
def commonChecks (l : Link) (kind : JobKind) (r : Option Range) (s : State) : List (Bool × Status) :=
  [(s.fsq.state = .faulted, .flashFault), (s.protects kind r, .protectedRange), (s.pinsIn r, .rangePinned),
   (jobLimit ≤ s.jq.jobs.length, .queueFull), ((s.link l).freeSlots = 0, .replySpace),
   (kind = .program && s.lowestFreeBuffer.isNone, .noBuffer)]

/-! ### Acceptance (R60, R61, R66) -/

/-- The job-id counter advances, from 65535 to 1 (R60). -/
def nextJobId (n : BitVec 16) : BitVec 16 := if n = 0xFFFF then 1 else n + 1

/-- What a request gives its job. -/
structure JobSpec where
  kind : JobKind
  range : Option Range
  verify : Bool
  raw : Option RawJob
  /-- the bytes of a PROGRAM -/
  data : List Byte
  deriving DecidableEq, Repr

/-- The record of a new job (R66, step 1). -/
def newJob (q : Request) (d : JobSpec) (id : BitVec 16) (staging : Option (Fin 4)) : Job :=
  { id := id, kind := d.kind, origin := q.link, session := q.session, deliver := true, range := d.range,
    staging := staging, verify := d.verify, raw := d.raw, phase := none, suspendCount := 0, busyTime := 0,
    dataIn := [], outcome := none }

/-- The buffer a job takes: the lowest free one for a PROGRAM (R61). -/
def State.takenBuffer (s : State) (kind : JobKind) : Option (Fin 4) :=
  if kind = .program then s.lowestFreeBuffer else none

/-- Step 1 and 2 of R66: the record at the end of the queue with the next id, its data in the staging buffer. A job
accepted into an empty queue changes the head (R103). -/
def State.appendJob (s : State) (q : Request) (d : JobSpec) : State :=
  let buf := s.takenBuffer d.kind
  let s := if s.jq.jobs.isEmpty then s.updFsq (fun f => { f with burst := 0 }) else s
  { s with
    jq := { s.jq with jobs := s.jq.jobs ++ [newJob q d s.jq.nextId buf], nextId := nextJobId s.jq.nextId }
    staging := match buf with
      | some b => s.staging.set b (some d.data)
      | none => s.staging }

/-- Step 4 of R66 (R81): nothing for a job without a range. -/
def State.holdRange (s : State) (r : Option Range) : State :=
  match r with
  | none => s
  | some r => s.clearRange r

/-- The five steps of R66; then, if the job became head, FSQ may take it at once (R100). -/
def State.acceptJob (s : State) (q : Request) (k : Kind) (d : JobSpec) : State :=
  let id := s.jq.nextId
  let t := (((s.appendJob q d).reserve q.link).holdRange d.range)
  let t := q.accept k (leBytes 2 id.toNat) t
  if s.jq.jobs.isEmpty then t.kick else t

/-- A job request: its kind's checks, then the common ones, then acceptance. -/
def jobRequest (q : Request) (k : Kind) (own : List (Bool × Status)) (d : JobSpec) (s : State) : State :=
  match firstFailure (own ++ commonChecks q.link d.kind d.range s) with
  | some st => q.refuse k st s
  | none => s.acceptJob q k d

/-! ### PROGRAM (R62) -/

/-- The job of a PROGRAM payload: address (4), flags (1), data. -/
def programSpec (p : List Byte) : JobSpec :=
  { kind := .program, range := some { base := field p 0 4, length := (p.drop 5).length },
    verify := byteAt p 4 &&& 1 ≠ 0, raw := none, data := p.drop 5 }

def programChecks (p : List Byte) (s : State) : List (Bool × Status) :=
  let addr := field p 0 4
  let n := (p.drop 5).length
  [(p.length < 5, .badField), (byteAt p 4 &&& 0xFE ≠ 0, .badField), (n = 0 || 256 < n, .badLength),
   (s.capacity < addr + n, .outOfRange), (addr / 256 ≠ (addr + n - 1) / 256, .pageCross)]

def programBody (q : Request) (s : State) : State :=
  jobRequest q .program (programChecks q.payload s) (programSpec q.payload) s

def execProgram (v : Arrival) (tag : Byte) (p : List Byte) (s : State) : Host.Outcome State Fault Refusal :=
  requestArrives .program programBody v tag p s

/-! ### ERASE (R63) -/

/-- The size selector is BLOCK. -/
def eraseIsBlock (p : List Byte) : Bool := byteAt p 4 = 1

/-- The bytes of the unit: 4096 or 65536. -/
def eraseUnit (p : List Byte) : Nat := if eraseIsBlock p then 65536 else 4096

/-- The job of an ERASE payload: address (4), size selector (1). -/
def eraseSpec (p : List Byte) : JobSpec :=
  { kind := if eraseIsBlock p then .eraseBlock else .eraseSector,
    range := some { base := field p 0 4, length := eraseUnit p }, verify := false, raw := none, data := [] }

def eraseChecks (p : List Byte) (s : State) : List (Bool × Status) :=
  let addr := field p 0 4
  [(1 < (byteAt p 4).toNat, .badField), (s.capacity ≤ addr, .outOfRange),
   (addr % eraseUnit p ≠ 0, .badAlign)]

def eraseBody (q : Request) (s : State) : State :=
  jobRequest q .erase (eraseChecks q.payload s) (eraseSpec q.payload) s

def execErase (v : Arrival) (tag : Byte) (p : List Byte) (s : State) : Host.Outcome State Fault Refusal :=
  requestArrives .erase eraseBody v tag p s

/-! ### RAW (R64) -/

/-- The RAW descriptor of a payload (Table 11-4): effect, write-enable-first flag, command byte, address-present flag,
address (4), dummy clocks, data-out count, data-in count, data-out bytes. -/
def rawJobOf (p : List Byte) : RawJob :=
  { modifying := byteAt p 0 = 1, writeEnableFirst := byteAt p 1 = 1, command := byteAt p 2,
    address := if byteAt p 3 = 1 then some (field p 4 4) else none, dummy := field p 8 1,
    dataOut := p.drop 11, dataInCount := field p 10 1 }

/-- The job of a RAW payload: the whole array when MODIFYING, no range when READ_ONLY (R58). -/
def rawSpec (p : List Byte) (s : State) : JobSpec :=
  { kind := .raw,
    range := if (rawJobOf p).modifying then some { base := 0, length := s.capacity } else none,
    verify := false, raw := some (rawJobOf p), data := [] }

/-- The checks of a RAW before the common ones, in their order (R64). R172 asks for a check of every flag byte, in the order
the owning rule sets; R64 names no place for the write-enable-first flag's. The model's choice (log 31): with the other
flags, R64's second item, before the counts. -/
def rawChecks (p : List Byte) (s : State) : List (Bool × Status) :=
  [(p.length < 11, .badField),
   (1 < field p 0 1 || 1 < field p 1 1 || 1 < field p 3 1 || 15 < field p 8 1 ||
      (field p 1 1 = 1 && field p 0 1 = 0), .badField),
   (16 < field p 9 1 || 16 < field p 10 1, .badLength),
   (p.length ≠ 11 + field p 9 1, .badField),
   (field p 3 1 = 1 && s.capacity ≤ field p 4 4, .outOfRange)]

def rawBody (q : Request) (s : State) : State :=
  jobRequest q .raw (rawChecks q.payload s) (rawSpec q.payload s) s

def execRaw (v : Arrival) (tag : Byte) (p : List Byte) (s : State) : Host.Outcome State Fault Refusal :=
  requestArrives .raw rawBody v tag p s

/-! ### CANCEL_JOB (R72) -/

/-- The place of the first job with an id, in queue order (R60). -/
def State.placeOf (s : State) (id : BitVec 16) : Option Nat :=
  match s.jq.jobs.findIdx? (fun j => j.id = id) with
  | some i => some i
  | none => none

/-- The job id of a payload. -/
def payloadId (p : List Byte) : BitVec 16 := BitVec.ofNat 16 (field p 0 2)

/-- Cancelling the head makes the next job head, and a release may create entries: FSQ goes on (R100, R111, R123). -/
def State.afterCancel (before after : State) (place : Nat) : State :=
  if place = 0 || before.fills.length < after.fills.length then after.kick else after

def cancelBody (q : Request) (s : State) : State :=
  match s.placeOf (payloadId q.payload) with
  | none => q.refuse .cancelJob .unknownJob s
  | some i =>
    match s.jq.jobs[i]? with
    | none => q.refuse .cancelJob .unknownJob s
    | some j =>
      if j.phase.isSome then q.refuse .cancelJob .jobRunning s
      else
        let t := q.accept .cancelJob q.payload (s.endJob i .cancelled)
        s.afterCancel t i

def execCancelJob (v : Arrival) (tag : Byte) (p : List Byte) (s : State) : Host.Outcome State Fault Refusal :=
  requestArrives .cancelJob cancelBody v tag p s

/-! ### QUERY_JOB (R74) -/

/-- The JOB RECORD of a job in the queue, 14 bytes (R74, Table 11-4). -/
def queueRecord (j : Job) (place : Nat) : List Byte :=
  leBytes 2 j.id.toNat ++ [0, jobKindCode j.kind, jobStateCode j.phase, phaseCode j.phase] ++
  leBytes 1 place ++ [linkCode j.origin, 0x00] ++ leBytes 1 j.suspendCount ++ leBytes 4 j.busyTime

/-- The JOB RECORD of a history entry: phase, queue position and origin link 0xFF. -/
def historyRecord (e : HistoryEntry) : List Byte :=
  leBytes 2 e.id.toNat ++ [1, jobKindCode e.kind, 2, 0xFF, 0xFF, 0xFF, statusCode e.outcome] ++
  leBytes 1 e.suspendCount ++ leBytes 4 e.busyTime

/-- The most recent history entry with an id (R60). -/
def State.historyOf (s : State) (id : BitVec 16) : Option HistoryEntry :=
  s.jq.history.reverse.find? (fun e => e.id = id)

def queryBody (q : Request) (s : State) : State :=
  match s.placeOf (payloadId q.payload) with
  | some i =>
    match s.jq.jobs[i]? with
    | some j => q.accept .queryJob (queueRecord j i) s
    | none => q.refuse .queryJob .unknownJob s
  | none =>
    match s.historyOf (payloadId q.payload) with
    | some e => q.accept .queryJob (historyRecord e) s
    | none => q.refuse .queryJob .unknownJob s

def execQueryJob (v : Arrival) (tag : Byte) (p : List Byte) (s : State) : Host.Outcome State Fault Refusal :=
  requestArrives .queryJob queryBody v tag p s

end Sys2Proof.Machine
end

