-- ==== Sys2Proof/Machine/ProtectRequests.lean ====
section
/-! DEFINITION. PROTECT, UNPROTECT, LIST_PROTECT (spec/09). -/

namespace Sys2Proof.Machine

/-! ### PROTECT (R146, R147) -/

/-- The mode of a code (Table 11-6). -/
def modeOf (b : Byte) : Option ProtectMode :=
  if b = 1 then some .noErase else if b = 2 then some .noModify else none

/-- The entry of a payload: base (4), length (4), mode (1), lock flag (1). -/
def protectEntryOf (p : List Byte) : ProtectEntry :=
  { base := field p 0 4, length := field p 4 4, mode := (modeOf (byteAt p 8)).getD .noErase,
    locked := byteAt p 9 = 1 }

/-- The checks of R146, in order. -/
def protectChecks (p : List Byte) (s : State) : List (Bool × Status) :=
  let base := field p 0 4
  let len := field p 4 4
  [((modeOf (byteAt p 8)).isNone || (flagOf (byteAt p 9)).isNone, .badField), (len = 0, .badLength),
   (base % 4096 ≠ 0 || len % 4096 ≠ 0, .badAlign), (s.capacity < base + len, .outOfRange),
   (s.lowestEmptySlot.isNone, .tableFull)]

def protectBody (q : Request) (s : State) : State :=
  match firstFailure (protectChecks q.payload s) with
  | some st => q.refuse .protect st s
  | none =>
    match s.lowestEmptySlot with
    | none => q.refuse .protect .tableFull s
    | some i =>
      q.accept .protect (leBytes 1 i.val)
        { s with protection := s.protection.set i (some (protectEntryOf q.payload)) }

def execProtect (v : Arrival) (tag : Byte) (p : List Byte) (s : State) : Host.Outcome State Fault Refusal :=
  requestArrives .protect protectBody v tag p s

/-! ### UNPROTECT (R148) -/

def unprotectBody (q : Request) (s : State) : State :=
  let i := field q.payload 0 1
  if h : i < 8 then
    match s.protection[i] with
    | none => q.refuse .unprotect .badField s
    | some e =>
      if e.locked then q.refuse .unprotect .locked s
      else q.accept .unprotect q.payload { s with protection := s.protection.set i none }
  else q.refuse .unprotect .badField s

def execUnprotect (v : Arrival) (tag : Byte) (p : List Byte) (s : State) : Host.Outcome State Fault Refusal :=
  requestArrives .unprotect unprotectBody v tag p s

/-! ### LIST_PROTECT (R149) -/

/-- A SLOT RECORD, 11 bytes (Table 11-4). -/
def slotRecord (e : Option ProtectEntry) : List Byte :=
  match e with
  | none => List.replicate 11 0
  | some x => [1] ++ leBytes 4 x.base ++ leBytes 4 x.length ++ [modeCode x.mode, flagByte x.locked]

def listProtectBody (q : Request) (s : State) : State :=
  q.accept .listProtect (s.protection.toList.flatMap slotRecord) s

def execListProtect (v : Arrival) (tag : Byte) (p : List Byte) (s : State) : Host.Outcome State Fault Refusal :=
  requestArrives .listProtect listProtectBody v tag p s

end Sys2Proof.Machine
end

