-- ==== Sys2Proof/Machine/Sessions.lean ====
section
/-! DEFINITION. OPEN, CLOSE, NOP, GET_STATUS, GET_STATS, RESET_PART (spec/10, 11). -/

namespace Sys2Proof.Machine

/-! ### OPEN (R164) -/

/-- The OPEN RECORD, 12 bytes (Table 11-4). -/
def openRecord (session : Byte) (q : Fsq) : List Byte :=
  leBytes 2 0x2240 ++ [0x01, session, BitVec.ofNat 8 q.capCode.val] ++ leBytes 1 lineSize ++
  leBytes 1 recordLimit ++ leBytes 1 fillLimit ++ leBytes 1 jobLimit ++ leBytes 1 4 ++
  [flashStateCode q.state, causeCode q.cause]

def openBody (q : Request) (s : State) : State :=
  if (s.link q.link).isOpen then q.refuse .openSession .alreadyOpen s
  else
    let s := s.updLink q.link (fun k => { k with session := k.session + 1, isOpen := true })
    q.accept .openSession (openRecord (s.link q.link).session s.fsq) s

def execOpen (v : Arrival) (tag : Byte) (p : List Byte) (s : State) : Host.Outcome State Fault Refusal :=
  requestArrives .openSession openBody v tag p s

/-! ### CLOSE (R39, R76, R165) -/

/-- A record is removed without a reply: its pairs withdrawn, its remaining claims removed (R12, R39). -/
def removeRecord (s : State) (r : Record) : State :=
  let s := s.withdraw r.id
  let s := match r.kind with
    | .read => s
    | .pin => (r.indexed .waitFill ++ r.indexed .waitSlot ++ r.indexed .waitWay).foldl
        (fun t i => t.dropClaim (r.lineOf i)) s
  { s with records := s.records.filter (fun q => q.id ≠ r.id) }

/-- Every record of a session is removed (R39). -/
def State.removeRecords (s : State) (l : Link) (session : Byte) : State :=
  (s.records.filter (fun r => r.link = l && r.session = session)).foldl removeRecord s

/-- The notice flags of a session's jobs become SUPPRESSED (R76). -/
def State.suppress (s : State) (l : Link) (session : Byte) : State :=
  { s with jq := { s.jq with jobs := s.jq.jobs.map (fun j =>
      if j.origin = l ∧ j.session = session then { j with deliver := false } else j) } }

/-- The put-off replies of a session are not to be placed (R115, R139, R165). -/
def State.mute (s : State) (l : Link) (session : Byte) : State :=
  s.updFsq (fun q =>
    { q with
      pendingProfile := q.pendingProfile.map (fun p =>
        if p.link = l ∧ p.session = session then { p with muted := true } else p)
      resetRequests := q.resetRequests.map (fun r =>
        if r.link = l ∧ r.session = session then { r with muted := true } else r) })

/-- The FIFO messages a CLOSE leaves: the one in transmission on link B, if it is of the FIFO (R165). -/
def State.keptAtClose (s : State) (l : Link) : List Message :=
  match l with
  | .a => []
  | .b => match s.uart.tx with
    | some (_, .fifo) => s.linkB.fifo.take 1
    | _ => []

/-- Steps 1 to 3 and 5 of R165 at the link: the CLOSE reply alone stands behind what is kept; every other message,
the holder's notice and every reservation goes; CLOSED, the session number kept. -/
def LinkState.close (k : LinkState) (kept : List Message) (reply : Message) : LinkState :=
  { k with fifo := kept ++ [reply], reserved := [], holder := none, isOpen := false }

def closeBody (q : Request) (s : State) : State :=
  let kept := s.keptAtClose q.link
  let s := s.updLink q.link (fun k => k.close kept (replyMessage .closeSession q.tag .ok []))
  ((s.removeRecords q.link q.session).suppress q.link q.session).mute q.link q.session

def execClose (v : Arrival) (tag : Byte) (p : List Byte) (s : State) : Host.Outcome State Fault Refusal :=
  requestArrives .closeSession closeBody v tag p s

/-! ### NOP (R173) -/

def nopBody (q : Request) (s : State) : State :=
  if 16 < q.payload.length then q.refuse .nop .badField s else q.accept .nop q.payload s

def execNop (v : Arrival) (tag : Byte) (p : List Byte) (s : State) : Host.Outcome State Fault Refusal :=
  requestArrives .nop nopBody v tag p s

/-! ### GET_STATUS (R174) -/

/-- The STATUS RECORD, 17 bytes (R174). -/
def statusRecord (s : State) : List Byte :=
  [flashStateCode s.fsq.state, causeCode s.fsq.cause] ++
  leBytes 2 ((s.running.map (fun j => j.id.toNat)).getD 0) ++
  [phaseCode (s.running.bind (fun j => j.phase))] ++ leBytes 1 s.jq.jobs.length ++
  leBytes 1 s.freeBuffers ++ leBytes 1 s.fills.length ++ leBytes 1 (s.recordsOf .a).length ++
  leBytes 1 (s.recordsOf .b).length ++ leBytes 1 s.linkA.freeSlots ++ leBytes 1 s.linkB.freeSlots ++
  leBytes 2 s.pinnedTotal ++ [flagByte s.fsq.pendingProfile.isSome] ++ leBytes 2 s.jq.nextId.toNat

def getStatusBody (q : Request) (s : State) : State := q.accept .getStatus (statusRecord s) s

def execGetStatus (v : Arrival) (tag : Byte) (p : List Byte) (s : State) : Host.Outcome State Fault Refusal :=
  requestArrives .getStatus getStatusBody v tag p s

/-! ### GET_STATS (R175) -/

/-- The three counters of a link, 4 bytes each. -/
def linkCounts (k : LinkState) : List Byte :=
  leBytes 4 k.framesTaken.toNat ++ leBytes 4 k.framesRejected.toNat ++ leBytes 4 k.overruns.toNat

/-- The COUNTER RECORD, 56 bytes (R175). -/
def counterRecord (s : State) : List Byte :=
  leBytes 4 s.counters.lookupHit.toNat ++ leBytes 4 s.counters.lookupMiss.toNat ++
  leBytes 4 s.counters.fillAttach.toNat ++ leBytes 4 s.counters.bypassFill.toNat ++
  leBytes 4 s.counters.doomedFill.toNat ++ leBytes 4 s.counters.suspension.toNat ++
  leBytes 4 s.counters.jobOk.toNat ++ leBytes 4 s.counters.jobFailed.toNat ++
  linkCounts s.linkA ++ linkCounts s.linkB

/-- The three counters of a link become 0. -/
def LinkState.clearCounts (k : LinkState) : LinkState :=
  { k with framesTaken := 0, framesRejected := 0, overruns := 0 }

/-- All 14 counters become 0 (R175, R176). -/
def State.clearCounts (s : State) : State :=
  { s with counters := .zero, linkA := s.linkA.clearCounts, linkB := s.linkB.clearCounts }

def getStatsBody (q : Request) (s : State) : State :=
  match flagOf (byteAt q.payload 0) with
  | none => q.refuse .getStats .badField s
  | some clear =>
    let s := q.accept .getStats (counterRecord s) s
    if clear then s.clearCounts else s

def execGetStats (v : Arrival) (tag : Byte) (p : List Byte) (s : State) : Host.Outcome State Fault Refusal :=
  requestArrives .getStats getStatsBody v tag p s

/-! ### RESET_PART (R167) -/

/-- An accepted RESET_PART places no reply; the part is reset at once. -/
def resetPartBody (_ : Request) (s : State) : State := s.partReset

def execResetPart (v : Arrival) (tag : Byte) (p : List Byte) (s : State) : Host.Outcome State Fault Refusal :=
  requestArrives .resetPart resetPartBody v tag p s

end Sys2Proof.Machine
end

