-- ==== Sys2Proof/Machine/LinkEvents.lean ====
section
/-! DEFINITION. The link events that are not requests: rejects, overruns, fetches, link B's transmissions, its timer
and its bytes (spec/10). -/

namespace Sys2Proof.Machine

/-! ### UNKNOWN_KIND (R171) -/

/-- The UNKNOWN_KIND reply: the received KIND plus 0x80, the received TAG, no payload. -/
def unknownReply (kind tag : Byte) : Message :=
  { kind := replyKind kind, tag := tag, status := .unknownKind, payload := [] }

/-- A frame of a KIND that names no request has arrived on a link to its end. -/
def unknownTaken (l : Link) (kind tag : Byte) (p : List Byte) (s : State) : Host.Outcome State Fault Refusal :=
  let session := (s.link l).session
  let r := s.receive l (requestFrame kind tag p)
  if maxLen < p.length + 2 then r.outcome (fun t => (t.reject l session .length).discardRest l)
  else r.outcome (fun t => t.place l session (unknownReply kind tag))

def execUnknownKind (v : Arrival) (kind tag : Byte) (p : List Byte) (s : State) :
    Host.Outcome State Fault Refusal :=
  if (kindOfCode kind).isSome then .fault .kindKnown
  else s.arrival v (requestFrame kind tag p) (fun l => unknownTaken l kind tag p s)

/-! ### FRAME_REJECT (R155, R157, R159) -/

/-- Link B's frame in reception breaks off: 2 ms pass and it is taken as TRUNCATED (R157). -/
def State.truncateB (s : State) : Host.Outcome State Fault Refusal :=
  atExpiry s (interByteLimit - s.linkB.interByte)
    (fun t => (t.take .b).reject .b t.linkB.session .truncated)

/-- A frame begins on link B with its SYNC byte (R157). -/
def State.beginFrameB (s : State) : State :=
  s.updLink .b (fun k => { k with receiver := .receiving, buffer := [0x5E], interByte := 0 })

/-- A frame that link B takes as TRUNCATED, from its beginning where it has not begun. -/
def State.truncatedB (s : State) : Host.Outcome State Fault Refusal :=
  if s.pins.rstAsserted then .next s
  else match s.linkB.receiver with
    | .idle =>
      if s.ready .b then s.beginFrameB.truncateB else .next (s.updLink .b LinkState.overrunB)
    | .receiving => s.truncateB
    | .discarding => .next (s.updLink .b (fun k => { k with interByte := 0 }))

/-- A frame on link B is taken with a reason. -/
def State.rejectedB (s : State) (r : RejectReason) : Host.Outcome State Fault Refusal :=
  let session := s.linkB.session
  match r with
  | .truncated => s.truncatedB
  | .length => (s.receiveB (fun buf => buf.length ≤ 2)).outcome (fun t => (t.reject .b session .length).discardRest .b)
  | .crc => (s.receiveB (fun _ => true)).outcome (fun t => t.reject .b session .crc)

/-- The bytes in link A's receive buffer can begin a frame that is taken with the reason at the rise (R155). -/
def LinkState.canReject (k : LinkState) (r : RejectReason) : Bool :=
  match r with
  | .truncated => !k.holdsBadLen && !k.holdsWhole
  | .length => k.holdsBadLen || k.buffer.length ≤ 2
  | .crc => !k.holdsBadLen && !(k.holdsWhole && frameCrcGood k.buffer)

/-- A frame on link A is taken with a reason, at the rise of CS_A_N. -/
def State.rejectedA (s : State) (r : RejectReason) : Host.Outcome State Fault Refusal :=
  (s.receiveA (fun _ => s.linkA.canReject r)).outcome (fun t => t.reject .a s.linkA.session r)

/-- More bytes of a frame, whatever they are, the SYNC before them where it is not in yet. -/
def moreBytes (bytes buffer : List Byte) : Option (List Byte) :=
  some ((if buffer = [] then [0x5E] else buffer) ++ bytes)

def execFrameReject (v : RejectArrival) (reason : RejectReason) (s : State) : Host.Outcome State Fault Refusal :=
  match v with
  | .a => s.rejectedA reason
  | .aBytes bytes => s.shiftInA (moreBytes bytes)
  | .b => s.rejectedB reason

/-! ### Overruns and ignored transactions (R154, R155, R157, R168) -/

/-- The rise of CS_A_N of an overrun, from where its transaction stands. -/
def execLinkAOverrun (s : State) : Host.Outcome State Fault Refusal :=
  let t := s.openA
  match t.spi.transaction with
  | .selected _ => if s.ready .a then .fault .noOverrun else (s.receiveA (fun _ => false)).outcome id
  | .writing =>
    if s.linkA.receiver = .receiving then .fault .noOverrun else (s.receiveA (fun _ => false)).outcome id
  | .fetching _ _ _ => .fault .linkAInTransaction
  | _ => .next t.riseA

def execLinkBOverrun (s : State) : Host.Outcome State Fault Refusal :=
  if s.pins.rstAsserted then .next s
  else if s.linkB.receiver = .idle ∧ s.ready .b = false then .next (s.updLink .b LinkState.overrunB)
  else .fault .noOverrun

/-- CS_A_N falls where no link A transaction is in progress. -/
def State.fall (s : State) : Host.Outcome State Fault Refusal :=
  if s.spi.transaction = .none then .next s.fallA else .fault .linkAInTransaction

/-- The first byte is complete; what it selects follows. A transaction ignored already stays so. -/
def State.firstByte (s : State) (act : State → Byte → State) : Host.Outcome State Fault Refusal :=
  let t := s.openA
  match t.spi.transaction with
  | .selected status => .next (act t status)
  | .ignored => .next t
  | _ => .fault .linkAInTransaction

/-- A transaction whose first byte selects nothing: the status byte goes out, then 0x00 (R154). One that ends before its
first byte is complete has no effect. -/
def execLinkAIgnored (part : IgnoredPart) (s : State) : Host.Outcome State Fault Refusal :=
  match part with
  | .fall => s.fall
  | .select first =>
    if first = 0x5E ∨ first = 0xC3 then .fault .selectorKnown
    else s.firstByte (fun t status => t.selectA status .ignored)
  | .whole first =>
    if first = 0x5E ∨ first = 0xC3 then .fault .selectorKnown
    else match s.firstByte (fun t status => t.selectA status .ignored) with
      | .next t => .next t.riseA
      | o => o
  | .rise =>
    match s.spi.transaction with
    | .selected _ => .next s.riseA
    | .ignored => .next s.riseA
    | _ => .fault .noSuchLinkATransaction

/-! ### FETCH (R156) -/

/-- The message a fetch chooses: the holder's notice, else the FIFO head. -/
def LinkState.chosen (k : LinkState) : Option (Message × Source) :=
  match k.holder with
  | some m => some (m, .holder)
  | none => match k.fifo with
    | m :: _ => some (m, .fifo)
    | [] => none

/-- The selector byte of a fetch is taken: the status byte is out and the message is chosen. -/
def State.fetchSelect (s : State) (status : Byte) : State :=
  s.selectA status (.fetching s.linkA.chosen false 0)

/-- The bytes of a message that is being shifted out; none where a fetch has found none. -/
def chosenBytes (chosen : Option (Message × Source)) : List Byte :=
  match chosen with
  | some (m, _) => messageFrame m
  | none => []

/-- A message leaves where it came from: a FIFO message frees its slot, a notice leaves the holder unless a newer one
has replaced it. -/
def LinkState.sent (k : LinkState) (src : Source) (replaced : Bool) : LinkState :=
  match src with
  | .fifo => { k with fifo := k.fifo.drop 1 }
  | .holder => if replaced then k else { k with holder := none }

/-- `n` more bytes of a fetch are clocked: the message's next bytes go out, 0x00 after its end. -/
def State.fetchShift (s : State) (chosen : Option (Message × Source)) (replaced : Bool) (out n : Nat) : State :=
  { s with spi :=
    { transaction := .fetching chosen replaced (out + n),
      sdo := s.spi.sdo ++ ((chosenBytes chosen).drop out).take n } }

/-- CS_A_N rises after `out` bytes of a fetch: the message is sent if all of it has been shifted out. -/
def State.fetchRise (s : State) (chosen : Option (Message × Source)) (replaced : Bool) (out : Nat) : State :=
  match chosen with
  | none => s.riseA
  | some (m, src) =>
    if (messageFrame m).length ≤ out then s.riseA.updLink .a (fun k => k.sent src replaced) else s.riseA

/-- What follows in a fetch in progress. A transaction ignored already goes on so. -/
def State.inFetch (s : State) (act : Option (Message × Source) → Bool → Nat → State) (ignored : State) :
    Host.Outcome State Fault Refusal :=
  match s.spi.transaction with
  | .fetching chosen replaced out => .next (act chosen replaced out)
  | .ignored => .next ignored
  | _ => .fault .noSuchLinkATransaction

/-- `n` more bytes of a fetch and then the rise of CS_A_N. -/
def State.fetchEnd (s : State) (n : Nat) : Host.Outcome State Fault Refusal :=
  s.inFetch (fun c r out => (s.fetchShift c r out n).fetchRise c r (out + n)) s.riseA

def execFetch (part : FetchPart) (s : State) : Host.Outcome State Fault Refusal :=
  match part with
  | .fall => s.fall
  | .select => s.firstByte State.fetchSelect
  | .shift n => s.inFetch (fun c r out => s.fetchShift c r out n) s
  | .finish n => s.fetchEnd n
  | .whole n =>
    match s.firstByte State.fetchSelect with
    | .next t => t.fetchEnd n
    | o => o

/-! ### Link B's transmissions (R158) -/

/-- The next message begins: a notice leaves the holder, a FIFO message stays. -/
def State.transmit (s : State) (m : Message) (src : Source) : State :=
  { s with
    uart := { s.uart with tx := some (m, src) },
    linkB := match src with
      | .holder => { s.linkB with holder := none }
      | .fifo => s.linkB }

/-- LIB looks at CTS_B_N, whose level is given: with it asserted, no message in transmission and one waiting, the next one
begins; else none does (log 17). -/
def execTransmitBegin (s : State) (cts : Bool := true) : Host.Outcome State Fault Refusal :=
  let t := { s with pins := { s.pins with cts := cts } }
  match cts, s.uart.tx, s.linkB.chosen with
  | true, none, some (m, src) => .next (t.transmit m src)
  | _, _, _ => .next t

def execTransmitEnd (s : State) : Host.Outcome State Fault Refusal :=
  match s.uart.tx with
  | none => .fault .notTransmitting
  | some (_, .holder) => .next { s with uart := { s.uart with tx := none } }
  | some (_, .fifo) =>
    .next { s with uart := { s.uart with tx := none }, linkB := s.linkB.sent .fifo false }

/-! ### Link B's timer and bytes (R157) -/

/-- DISCARDING ends: 2 ms with no byte. -/
def State.receiverIdle (s : State) : State :=
  s.updLink .b (fun k => { k with receiver := .idle, buffer := [], interByte := 0 })

def execInterByteExpiry (s : State) : Host.Outcome State Fault Refusal :=
  match s.linkB.receiver with
  | .idle => .fault .timerNotRunning
  | .receiving => s.truncateB
  | .discarding => atExpiry s (interByteLimit - s.linkB.interByte) State.receiverIdle

/-- The request's own part of each kind. -/
def bodyOf : Kind → Request → State → State
  | .openSession => openBody
  | .closeSession => closeBody
  | .nop => nopBody
  | .getStatus => getStatusBody
  | .getStats => getStatsBody
  | .read => readBody
  | .pin => pinBody
  | .unpin => unpinBody
  | .invalidate => invalidateBody
  | .probeLine => probeBody
  | .program => programBody
  | .erase => eraseBody
  | .raw => rawBody
  | .cancelJob => cancelBody
  | .queryJob => queryBody
  | .setProfile => setProfileBody
  | .getProfile => getProfileBody
  | .resetFlash => resetFlashBody
  | .resetPart => resetPartBody
  | .protect => protectBody
  | .unprotect => unprotectBody
  | .listProtect => listProtectBody

/-- A whole frame is taken on link B and examined (R159): CRC, kind, then the request. -/
def State.takeWholeB (s : State) (bytes : List Byte) : State :=
  let session := s.linkB.session
  let t := s.take .b
  if frameCrcGood bytes then
    let kind := byteAt bytes 3
    let tag := byteAt bytes 4
    let p := (bytes.drop 5).take (bytes.length - 7)
    match kindOfCode kind with
    | some k => ({ link := .b, session := session, tag := tag, payload := p } : Request).serve k (bodyOf k) t
    | none => t.place .b session (unknownReply kind tag)
  else t.reject .b session .crc

/-- A byte in RECEIVING: stored; a bad LEN or the last CRC byte takes the frame (R157). -/
def State.storeByteB (s : State) (b : Byte) : State :=
  let buf := s.linkB.buffer ++ [b]
  let len := field buf 1 2
  if buf.length = 3 ∧ (maxLen < len ∨ len < 2) then
    ((s.take .b).reject .b s.linkB.session .length).discardRest .b
  else if 3 ≤ buf.length ∧ buf.length = len + 5 then s.takeWholeB buf
  else s.updLink .b (fun k => { k with buffer := buf, interByte := 0 })

def execByteReceived (b : Byte) (s : State) : Host.Outcome State Fault Refusal :=
  if s.pins.rstAsserted then .next s
  else match s.linkB.receiver with
    | .idle =>
      if b = 0x5E then
        if s.ready .b then .next s.beginFrameB else .next (s.updLink .b LinkState.overrunB)
      else .next s
    | .receiving => .next (s.storeByteB b)
    | .discarding => .next (s.updLink .b (fun k => { k with interByte := 0 }))

end Sys2Proof.Machine
end

