-- ==== Sys2Proof/Machine/FlashEvents.lean ====
section
/-! DEFINITION. The events of the flash port in normal running: a fill's arrival and a job's transactions, polls and
timeout (spec/06). -/

namespace Sys2Proof.Machine

/-! ### A fill's line read ends (R50, R102, R127, R142) -/

/-- After an arrival FSQ goes on: a RESET_FLASH that waits takes effect, else SUSPENDED decides again or FSQ enters
READY and arbitrates. -/
def State.afterFill (s : State) : State :=
  if s.fsq.resetDue then s.resetTakesEffect
  else if s.fsq.state = .suspended then s.suspendedDecision
  else s.enterReady

/-- The line whose read is in progress. -/
def State.readLine (s : State) : Option Nat :=
  match s.fsq.port with
  | some t => match t.use with
    | .fillRead line => some line
    | _ => none
  | none => none

def execFillArrival (data : List Byte) (s : State) : Host.Outcome State Fault Refusal :=
  match s.readLine with
  | none => .fault .noSuchTransaction
  | some line =>
    if data.length ≠ lineSize then .fault .wrongByteCount
    else match s.fill line with
      | none => .fault .noOwner
      | some f => .next (s.endPort.arrive f data).afterFill

/-! ### A job's transaction ends -/

/-- The end of a job's transaction: a RESET_FLASH that waits takes effect and the result is not acted on; else the act
follows (R142). -/
def jobTransactionEnd (s : State) (use : TransactionUse) (act : Job → State → State) :
    Host.Outcome State Fault Refusal :=
  if s.portIs use then
    match s.running with
    | none => .fault .noOwner
    | some j =>
      let t := s.endPort
      .next (if t.fsq.resetDue then t.resetTakesEffect else act j t)
  else .fault .noSuchTransaction

/-- The write-enable ends: the program, erase or descriptor transaction is begun (R104). -/
def execWriteEnableEnd (s : State) : Host.Outcome State Fault Refusal :=
  jobTransactionEnd s .writeEnable (fun j t => t.begin (t.mainTransaction j))

/-- The program transaction ends: BUSY (R105). -/
def execProgramEnd (s : State) : Host.Outcome State Fault Refusal :=
  jobTransactionEnd s .program (fun _ t => t.enterBusy)

/-- The erase transaction ends: BUSY (R106). -/
def execEraseEnd (s : State) : Host.Outcome State Fault Refusal :=
  jobTransactionEnd s .erase (fun _ t => t.enterBusy)

/-- The job's RAW effect is MODIFYING. -/
def Job.modifying (j : Job) : Bool :=
  match j.raw with
  | some r => r.modifying
  | none => false

/-- A descriptor transaction has ended: its bytes are kept; READ_ONLY ends OK, MODIFYING becomes BUSY (R107). -/
def State.descriptorEnded (s : State) (data : List Byte) (j : Job) : State :=
  let t := s.updHead (fun h => { h with dataIn := data })
  if j.modifying then t.enterBusy else t.finishJob .ok

def execDescriptorEnd (data : List Byte) (s : State) : Host.Outcome State Fault Refusal :=
  if s.portIs .descriptor && !s.portTakes .descriptor data.length then .fault .wrongByteCount
  else jobTransactionEnd s .descriptor (fun j t => t.descriptorEnded data j)

/-- A status read of the busy period has brought its byte (R108, R123). -/
def State.statusRead (s : State) (b : Byte) (j : Job) : State :=
  if readsSet s.fsq.active.busyMask b = false then s.busyEnded j
  else if timeoutOf s.fsq.active j.kind ≤ j.busyTime then s.timeOutJob
  else if s.suspensionDue then s.beginSuspension
  else s.beginWait .poll

def execStatusReadEnd (b : Byte) (s : State) : Host.Outcome State Fault Refusal :=
  jobTransactionEnd s .statusRead (fun j t => t.statusRead b j)

/-- 20 us after a status read the next one is begun (R108). -/
def execPollExpiry (s : State) : Host.Outcome State Fault Refusal :=
  if s.fsq.wait = .poll then atExpiry s (pollInterval - s.fsq.waitTime) State.beginStatusRead
  else .fault .timerNotRunning

/-- The busy time reaches the timeout: between reads the job times out; in a read it stops growing and the read's end
decides (R108, log 6). -/
def execOperationTimeout (s : State) : Host.Outcome State Fault Refusal :=
  if s.busyGrows then
    match s.running with
    | none => .fault .timerNotRunning
    | some j =>
      let left := timeoutOf s.fsq.active j.kind - j.busyTime
      if s.fsq.wait = .poll then atExpiry s left State.timeOutJob else atExpiry s left id
  else .fault .timerNotRunning

/-- The error-status byte is examined (R109). -/
def State.errorStatusRead (s : State) (b : Byte) (j : Job) : State :=
  if readsSet (failMask s.fsq.active j) b then
    if s.fsq.active.clearStatus = 0 then s.finishJob (failureOutcome j)
    else s.begin (oneByte .clearStatus s.fsq.active.clearStatus)
  else s.checkPassed j

def execErrorStatusEnd (b : Byte) (s : State) : Host.Outcome State Fault Refusal :=
  jobTransactionEnd s .errorStatusRead (fun j t => t.errorStatusRead b j)

/-- The clear-status transaction ends: the job ends failed (R109). -/
def execClearStatusEnd (s : State) : Host.Outcome State Fault Refusal :=
  jobTransactionEnd s .clearStatus (fun j t => t.finishJob (failureOutcome j))

/-- The bytes of the job's staging buffer. -/
def State.stagedData (s : State) (j : Job) : List Byte :=
  match j.staging with
  | some b => s.staging[b].getD []
  | none => []

/-- The bytes read back are compared with the staging buffer (R110). -/
def State.verifyRead (s : State) (data : List Byte) (j : Job) : State :=
  s.finishJob (if data = s.stagedData j then .ok else .verifyMismatch)

def execVerifyEnd (data : List Byte) (s : State) : Host.Outcome State Fault Refusal :=
  if s.portIs .verifyRead && !s.portTakes .verifyRead data.length then .fault .wrongByteCount
  else jobTransactionEnd s .verifyRead (fun j t => t.verifyRead data j)

end Sys2Proof.Machine
end

