-- ==== Sys2Proof/Machine/Recovery.lean ====
section
/-! DEFINITION. The events of the RECOVERING sequence (spec/08). -/

namespace Sys2Proof.Machine

/-- The end of a recovery transaction: past the 20 ms recovery ends in FAULTED and the result is not acted on; a
RESET_FLASH taken in it restarts the sequence; else the act follows (R137; log 14). -/
def State.recoveryStep (s : State) (act : State → State) : State :=
  let t := s.endPort
  if recoveryLimit ≤ t.fsq.recoveryTime then t.recoveryFaulted .recoveryTimeout
  else if t.fsq.resetDue then t.restartRecovery
  else act t

/-- A reset command ends: the second one follows the first, the recovery wait the second (R135). -/
def execRecoveryResetEnd (s : State) : Host.Outcome State Fault Refusal :=
  if s.portIs .recoveryReset1 then
    .next (s.recoveryStep (fun t => t.begin (oneByte .recoveryReset2 t.fsq.active.secondReset)))
  else if s.portIs .recoveryReset2 then .next (s.recoveryStep (fun t => t.beginWait .recovery))
  else .fault .noSuchTransaction

/-- The status read of an attempt is begun (R135). -/
def State.beginRecoveryRead (s : State) : State :=
  s.begin (readBytes .recoveryStatusRead s.fsq.active.statusCommand 1)

/-- The recovery wait elapses (R135). -/
def execRecoveryWaitEnd (s : State) : Host.Outcome State Fault Refusal :=
  if s.fsq.wait = .recovery then
    atExpiry s (s.fsq.active.recoveryWait * 1000 - s.fsq.waitTime) State.beginRecoveryRead
  else .fault .timerNotRunning

/-- The recovery status byte: idle leads to the probe or to READY; busy to attempt 2 or to FAULTED (R135, R136). -/
def State.recoveryStatus (s : State) (b : Byte) : State :=
  if readsSet s.fsq.active.busyMask b = false then
    if s.fsq.probe then s.begin (readBytes .recoveryIdRead 0x9F 3) else s.recoveryReady
  else if s.fsq.attempt = 1 then (s.updFsq (fun q => { q with attempt := 2 })).beginReset
  else s.recoveryFaulted .stuckBusy

def execRecoveryStatusEnd (b : Byte) (s : State) : Host.Outcome State Fault Refusal :=
  if s.portIs .recoveryStatusRead then .next (s.recoveryStep (fun t => t.recoveryStatus b))
  else .fault .noSuchTransaction

/-- The probe's identification: the flash ID is replaced; no device is ABSENT (R136). -/
def State.recoveryId (s : State) (i : FlashId) : State :=
  let t := s.updFsq (fun q => { q with flashId := i })
  if idAbsent i then t.recoveryFaulted .absent else t.recoveryReady

def execRecoveryIdEnd (i : FlashId) (s : State) : Host.Outcome State Fault Refusal :=
  if s.portIs .recoveryIdRead then .next (s.recoveryStep (fun t => t.recoveryId i))
  else .fault .noSuchTransaction

/-- The recovery timer reaches 20 ms: in a wait recovery ends at once; in a transaction its end does it (R137). -/
def execRecoveryTimeout (s : State) : Host.Outcome State Fault Refusal :=
  let left := recoveryLimit - s.fsq.recoveryTime
  if s.fsq.state = .recovering then
    if s.fsq.wait = .recovery then atExpiry s left (fun t => t.recoveryFaulted .recoveryTimeout)
    else atExpiry s left id
  else .fault .timerNotRunning

end Sys2Proof.Machine
end

