-- ==== Sys2Proof/Machine/Startup.lean ====
section
/-! DEFINITION. Power-on, the pin reset and start-up (spec/06 R117 to R120, 00 0.7). -/

namespace Sys2Proof.Machine

/-- The Protection Table emptied (R151). -/
def emptyProtection : Vector (Option ProtectEntry) 8 := Vector.replicate 8 none

/-- Power-on: every block is reset and FSQ enters STARTING with the straps sampled (R117); RST_N deasserted (log 17). A link A
transaction in progress is gone: CS_A_N counts as deasserted (log 29). -/
def execPowerOn (cap : Fin 8) (baud : Fin 4) (s : State) : Host.Outcome State Fault Refusal :=
  .next ({ s.clearBlocks with
    protection := emptyProtection, spi := { transaction := .none, sdo := [] },
    pins := { s.pins with rstAsserted := false, cap := cap, baud := baud } }.enterStarting .powerOn)

/-- FSQ while RST_N is asserted: nothing on the port, nothing running (R117; log 11). -/
def Fsq.held (q : Fsq) : Fsq := { Fsq.starting .pin q.capCode with wait := .none }

/-- RST_N is asserted: transactions are cut, the part is cleared, FSQ does nothing more (R94, R117, R168). SDO_A is
high impedance. -/
def execPinResetAssert (s : State) : Host.Outcome State Fault Refusal :=
  let t := s.clearBlocks
  .next { t with
    protection := emptyProtection, spi := { t.spi with sdo := [] },
    pins := { s.pins with rstAsserted := true }, fsq := s.fsq.held }

/-- RST_N is released: the straps are sampled and FSQ enters STARTING with cause PIN (R117). -/
def execPinResetRelease (cap : Fin 8) (baud : Fin 4) (s : State) : Host.Outcome State Fault Refusal :=
  if s.pins.rstAsserted then
    .next ({ s with pins := { s.pins with rstAsserted := false, cap := cap, baud := baud } }.enterStarting .pin)
  else .fault .resetNotAsserted

/-- The settle wait elapses: the first reset command (R118). -/
def execStartupSettleEnd (s : State) : Host.Outcome State Fault Refusal :=
  if s.fsq.wait = .settle then
    atExpiry s (settleTime - s.fsq.waitTime)
      (fun t => t.begin (oneByte .startupReset1 t.fsq.active.firstReset))
  else .fault .timerNotRunning

/-- A start-up reset command ends: the second one, or the recovery wait (R118). -/
def execStartupResetEnd (s : State) : Host.Outcome State Fault Refusal :=
  if s.portIs .startupReset1 then
    .next (s.endPort.begin (oneByte .startupReset2 s.fsq.active.secondReset))
  else if s.portIs .startupReset2 then .next (s.endPort.beginWait .startupRecovery)
  else .fault .noSuchTransaction

/-- The start-up recovery wait elapses: the ID read, command 0x9F (R118). -/
def execStartupWaitEnd (s : State) : Host.Outcome State Fault Refusal :=
  if s.fsq.wait = .startupRecovery then
    atExpiry s (s.fsq.active.recoveryWait * 1000 - s.fsq.waitTime)
      (fun t => t.begin (readBytes .startupIdRead 0x9F 3))
  else .fault .timerNotRunning

/-- The start-up ID read ends: ABSENT, or the first status read and its 10 ms (R118, R119). -/
def execStartupIdEnd (i : FlashId) (s : State) : Host.Outcome State Fault Refusal :=
  if s.portIs .startupIdRead then
    let t := s.endPort.updFsq (fun q => { q with flashId := i })
    .next (if idAbsent i then t.startupFaulted .absent
      else (t.updFsq (fun q => { q with startupTime := 0 })).beginStartupRead)
  else .fault .noSuchTransaction

/-- A start-up status read ends: READY, the next read in 20 us, or at the limit FAULTED (R118, R119). -/
def execStartupStatusEnd (b : Byte) (s : State) : Host.Outcome State Fault Refusal :=
  if s.portIs .startupStatusRead then
    let t := s.endPort
    .next (if readsSet t.fsq.active.busyMask b = false then t.startupReady
      else if startupLimit ≤ t.fsq.startupTime then t.startupFaulted .stuckBusy
      else t.beginWait .startupPoll)
  else .fault .noSuchTransaction

/-- 20 us after a start-up status read the next one is begun (R118). -/
def execStartupPollExpiry (s : State) : Host.Outcome State Fault Refusal :=
  if s.fsq.wait = .startupPoll then
    atExpiry s (pollInterval - s.fsq.waitTime) State.beginStartupRead
  else .fault .timerNotRunning

/-- 10 ms have passed since the first start-up status read: between reads FAULTED; in a read its end decides
(R119, log 6). -/
def execStartupBusyLimit (s : State) : Host.Outcome State Fault Refusal :=
  let left := startupLimit - s.fsq.startupTime
  if s.fsq.wait = .startupPoll then atExpiry s left (fun t => t.startupFaulted .stuckBusy)
  else if s.portIs .startupStatusRead then atExpiry s left id
  else .fault .timerNotRunning

end Sys2Proof.Machine
end

