-- ==== Sys2Proof/Machine/Suspension.lean ====
section
/-! DEFINITION. The events of erase suspension (spec/07). -/

namespace Sys2Proof.Machine

/-- The segment time reaches the hold time: between two reads R122 is evaluated; in a read the read's end does it
(R123, log 6). -/
def execHoldExpiry (s : State) : Host.Outcome State Fault Refusal :=
  let left := s.fsq.active.holdTime * 1000 - s.fsq.segTime
  match s.running with
  | none => .fault .timerNotRunning
  | some j =>
    if j.isErase && s.busyGrows && s.fsq.segTime ≤ s.fsq.active.holdTime * 1000 then
      if s.busyGrowth left ≠ left then .fault .otherTimerFirst
      else if s.fsq.wait = .poll then
        atExpiry s left (fun t => if t.suspensionDue then t.beginSuspension else t)
      else atExpiry s left id
    else .fault .timerNotRunning

/-- A suspended-status read is begun (R125). -/
def State.beginSuspendedRead (s : State) : State :=
  s.begin (readBytes .suspendedStatusRead s.fsq.active.suspendedStatus 1)

/-- The suspend command ends: the suspension start, and the first suspended-status read (R124, R125). -/
def execSuspendCommandEnd (s : State) : Host.Outcome State Fault Refusal :=
  jobTransactionEnd s .suspendCommand (fun _ t =>
    (t.updFsq (fun q => { q with suspendTime := 0 })).beginSuspendedRead)

/-- The device has suspended the erase: fill service begins (R125, case 1). -/
def State.enterSuspended (s : State) : State :=
  (((s.setPhase .suspended).setFlash .suspended).updFsq (fun q => { q with fillsServed := 0 })).suspendedDecision

/-- The three cases of R125, in order, and the suspend timeout reached in the read (R126). -/
def State.suspendedStatus (s : State) (b : Byte) (j : Job) : State :=
  let q := s.fsq.active
  if readsSet q.suspendedMask b then s.enterSuspended
  else if q.suspendedStatus = q.statusCommand && !readsSet q.busyMask b then
    ((s.setPhase .busy).setFlash .job).busyEnded j
  else if q.suspendTimeout ≤ s.fsq.suspendTime then s.timeOutJob
  else s.beginWait .suspendPoll

def execSuspendedStatusEnd (b : Byte) (s : State) : Host.Outcome State Fault Refusal :=
  jobTransactionEnd s .suspendedStatusRead (fun j t => t.suspendedStatus b j)

/-- 20 us after a suspended-status read the next one is begun (R125). -/
def execSuspendPollExpiry (s : State) : Host.Outcome State Fault Refusal :=
  if s.fsq.wait = .suspendPoll then
    atExpiry s (pollInterval - s.fsq.waitTime) State.beginSuspendedRead
  else .fault .timerNotRunning

/-- The suspend timeout elapses: between reads the job times out; in a read its end decides (R125, R126, log 6). -/
def execSuspendTimeout (s : State) : Host.Outcome State Fault Refusal :=
  let left := s.fsq.active.suspendTimeout - s.fsq.suspendTime
  if s.fsq.wait = .suspendPoll then atExpiry s left State.timeOutJob
  else if s.portIs .suspendedStatusRead then atExpiry s left id
  else .fault .timerNotRunning

/-- The resume has ended: count and SUSPENSION rise, BUSY again, the segment time 0 (R128). -/
def State.resumed (s : State) : State :=
  (((s.updHead (fun j => { j with suspendCount := j.suspendCount + 1, phase := some .busy })).updCounters
    (fun c => { c with suspension := c.suspension + 1 })).setFlash .job).updFsq (fun q => { q with segTime := 0 })

/-- The resume's end is taken first; then a RESET_FLASH that waits takes effect between reads, else a status read is
begun at once (R128, R129). -/
def execResumeEnd (s : State) : Host.Outcome State Fault Refusal :=
  if s.portIs .resume then
    match s.running with
    | none => .fault .noOwner
    | some _ =>
      let t := s.endPort.resumed
      .next (if t.fsq.resetDue then t.resetTakesEffect else t.beginStatusRead)
  else .fault .noSuchTransaction

end Sys2Proof.Machine
end

