-- ==== Sys2Proof/Machine/Dispatch.lean ====
section
/-! DEFINITION. The meaning of every command, one arm per constructor. -/

namespace Sys2Proof.Machine

def exec (i : Instr) (s : State) : Host.Outcome State Fault Refusal :=
  match i with
  | .powerOn cap baud => Sys2Proof.Machine.execPowerOn cap baud s
  | .pinResetAssert => Sys2Proof.Machine.execPinResetAssert s
  | .pinResetRelease cap baud => Sys2Proof.Machine.execPinResetRelease cap baud s
  | .startupSettleEnd => Sys2Proof.Machine.execStartupSettleEnd s
  | .startupResetCommandEnd => Sys2Proof.Machine.execStartupResetEnd s
  | .startupRecoveryWaitEnd => Sys2Proof.Machine.execStartupWaitEnd s
  | .startupIdReadEnd id => Sys2Proof.Machine.execStartupIdEnd id s
  | .startupStatusReadEnd status => Sys2Proof.Machine.execStartupStatusEnd status s
  | .startupPollIntervalExpiry => Sys2Proof.Machine.execStartupPollExpiry s
  | .startupBusyLimitExpiry => Sys2Proof.Machine.execStartupBusyLimit s
  | .openSession v tag payload => Sys2Proof.Machine.execOpen v tag payload s
  | .closeSession v tag payload => Sys2Proof.Machine.execClose v tag payload s
  | .nop v tag payload => Sys2Proof.Machine.execNop v tag payload s
  | .getStatus v tag payload => Sys2Proof.Machine.execGetStatus v tag payload s
  | .getStats v tag payload => Sys2Proof.Machine.execGetStats v tag payload s
  | .read v tag payload => Sys2Proof.Machine.execRead v tag payload s
  | .pin v tag payload => Sys2Proof.Machine.execPin v tag payload s
  | .unpin v tag payload => Sys2Proof.Machine.execUnpin v tag payload s
  | .invalidate v tag payload => Sys2Proof.Machine.execInvalidate v tag payload s
  | .probeLine v tag payload => Sys2Proof.Machine.execProbeLine v tag payload s
  | .program v tag payload => Sys2Proof.Machine.execProgram v tag payload s
  | .erase v tag payload => Sys2Proof.Machine.execErase v tag payload s
  | .raw v tag payload => Sys2Proof.Machine.execRaw v tag payload s
  | .cancelJob v tag payload => Sys2Proof.Machine.execCancelJob v tag payload s
  | .queryJob v tag payload => Sys2Proof.Machine.execQueryJob v tag payload s
  | .setProfile v tag payload => Sys2Proof.Machine.execSetProfile v tag payload s
  | .getProfile v tag payload => Sys2Proof.Machine.execGetProfile v tag payload s
  | .resetFlash v tag payload => Sys2Proof.Machine.execResetFlash v tag payload s
  | .resetPart v tag payload => Sys2Proof.Machine.execResetPart v tag payload s
  | .protect v tag payload => Sys2Proof.Machine.execProtect v tag payload s
  | .unprotect v tag payload => Sys2Proof.Machine.execUnprotect v tag payload s
  | .listProtect v tag payload => Sys2Proof.Machine.execListProtect v tag payload s
  | .unknownKind v kind tag payload => Sys2Proof.Machine.execUnknownKind v kind tag payload s
  | .frameReject v reason => Sys2Proof.Machine.execFrameReject v reason s
  | .linkAOverrun => Sys2Proof.Machine.execLinkAOverrun s
  | .linkAIgnoredTransaction part => Sys2Proof.Machine.execLinkAIgnored part s
  | .fetch part => Sys2Proof.Machine.execFetch part s
  | .linkBOverrun => Sys2Proof.Machine.execLinkBOverrun s
  | .interByteTimerExpiry => Sys2Proof.Machine.execInterByteExpiry s
  | .linkBTransmitBegin cts => Sys2Proof.Machine.execTransmitBegin s cts
  | .linkBTransmitEnd => Sys2Proof.Machine.execTransmitEnd s
  | .fillArrival data => Sys2Proof.Machine.execFillArrival data s
  | .writeEnableEnd => Sys2Proof.Machine.execWriteEnableEnd s
  | .programTransactionEnd => Sys2Proof.Machine.execProgramEnd s
  | .eraseTransactionEnd => Sys2Proof.Machine.execEraseEnd s
  | .descriptorTransactionEnd data => Sys2Proof.Machine.execDescriptorEnd data s
  | .statusReadEnd status => Sys2Proof.Machine.execStatusReadEnd status s
  | .pollIntervalExpiry => Sys2Proof.Machine.execPollExpiry s
  | .operationTimeout => Sys2Proof.Machine.execOperationTimeout s
  | .errorStatusReadEnd status => Sys2Proof.Machine.execErrorStatusEnd status s
  | .clearStatusEnd => Sys2Proof.Machine.execClearStatusEnd s
  | .verifyReadEnd data => Sys2Proof.Machine.execVerifyEnd data s
  | .holdTimeExpiry => Sys2Proof.Machine.execHoldExpiry s
  | .suspendCommandEnd => Sys2Proof.Machine.execSuspendCommandEnd s
  | .suspendedStatusReadEnd status => Sys2Proof.Machine.execSuspendedStatusEnd status s
  | .suspendPollIntervalExpiry => Sys2Proof.Machine.execSuspendPollExpiry s
  | .suspendTimeout => Sys2Proof.Machine.execSuspendTimeout s
  | .resumeEnd => Sys2Proof.Machine.execResumeEnd s
  | .recoveryResetCommandEnd => Sys2Proof.Machine.execRecoveryResetEnd s
  | .recoveryWaitEnd => Sys2Proof.Machine.execRecoveryWaitEnd s
  | .recoveryStatusReadEnd status => Sys2Proof.Machine.execRecoveryStatusEnd status s
  | .recoveryIdReadEnd id => Sys2Proof.Machine.execRecoveryIdEnd id s
  | .recoveryTimeout => Sys2Proof.Machine.execRecoveryTimeout s
  | .linkBByteReceived byte => Sys2Proof.Machine.execByteReceived byte s

end Sys2Proof.Machine
end

