-- ==== Sys2Proof/Machine/Wires.lean ====
section
/-! DEFINITION. The flash port on its wires (R94, R96, R98): what FSQ drives on FIO in each FSCK period of a transaction,
what it takes from FIO, and the command that a transaction's end is for the levels it took. Periods are counted, not timed
(log 20). -/

namespace Sys2Proof.Machine

/-! ### Bytes and bits -/

/-- The bits of a byte, most significant first (R94). -/
def byteBits (b : Byte) : List Bool := [7, 6, 5, 4, 3, 2, 1, 0].map b.getLsbD

/-- The byte that bits spell, most significant first. -/
def bitsByte (bits : List Bool) : Byte := bits.foldl (fun acc x => (acc <<< 1) ||| (if x then 1 else 0)) 0

/-- The bytes that bits spell; fewer than 8 bits at the end spell none. -/
def bitsBytes : List Bool → List Byte
  | a :: b :: c :: d :: e :: f :: g :: h :: rest => bitsByte [a, b, c, d, e, f, g, h] :: bitsBytes rest
  | _ => []

/-! ### What is sent -/

/-- One FSCK period of a transaction: FSQ drives FIO0 with a bit; it drives no lane and takes no data; or it takes data
from a number of lanes, and drives none (log 27). -/
inductive Period where
  | drives (fio0 : Bool)
  | dummy
  | takes (lanes : Nat)
  deriving DecidableEq, Repr

/-- The bytes sent on FIO0: command, address, data-out, in this order (R94). -/
def Transaction.sent (t : Transaction) : List Byte := t.command :: (t.address ++ t.dataOut)

/-- The FSCK periods of a transaction, in order (R94, R98). -/
def Transaction.periods (t : Transaction) : List Period :=
  (t.sent.flatMap byteBits).map .drives ++ List.replicate t.dummy .dummy ++
    List.replicate (t.dataIn * 8 / t.lanes) (.takes t.lanes)

/-- The core clock in Hz (00 R1). -/
def coreClock : Nat := 100000000

/-- The frequency of FSCK, in Hz, while FCS_N is asserted; FSCK does not run else (R94, R96). -/
def State.fsck (s : State) : Option Nat := s.fsq.port.map (fun _ => coreClock / s.fsq.active.divider)

/-! ### What is taken -/

/-- The levels on FIO3 to FIO0 in one period; bit `i` is FIO`i`. -/
abbrev Fio := BitVec 4

/-- The bits that one period takes, the more significant first: FIO1 alone; FIO1 and FIO0; FIO3 to FIO0 (R98). -/
def laneBits (lanes : Nat) (f : Fio) : List Bool :=
  match lanes with
  | 1 => [f.getLsbD 1]
  | 2 => [f.getLsbD 1, f.getLsbD 0]
  | 4 => [f.getLsbD 3, f.getLsbD 2, f.getLsbD 1, f.getLsbD 0]
  | _ => []

/-- The data-in bytes that the levels of the data-in periods spell (R94, R98). -/
def laneBytes (lanes : Nat) (levels : List Fio) : List Byte := bitsBytes (levels.flatMap (laneBits lanes))

/-- The levels by which a device gives a byte, with 0 on the lanes that carry none. -/
def byteLevels (lanes : Nat) (b : Byte) : List Fio :=
  let bit (n i : Nat) : Fio := if b.getLsbD n then BitVec.twoPow 4 i else 0
  match lanes with
  | 1 => [bit 7 1, bit 6 1, bit 5 1, bit 4 1, bit 3 1, bit 2 1, bit 1 1, bit 0 1]
  | 2 => [bit 7 1 ||| bit 6 0, bit 5 1 ||| bit 4 0, bit 3 1 ||| bit 2 0, bit 1 1 ||| bit 0 0]
  | 4 => [bit 7 3 ||| bit 6 2 ||| bit 5 1 ||| bit 4 0, bit 3 3 ||| bit 2 2 ||| bit 1 1 ||| bit 0 0]
  | _ => []

/-! ### The end of the transaction in progress -/

/-- The command that the end of a transaction is, with its data-in bytes. -/
def TransactionUse.endCommand (u : TransactionUse) (data : List Byte) : Instr :=
  let b0 := data.getD 0 0
  let id : FlashId := ⟨b0, data.getD 1 0, data.getD 2 0⟩
  match u with
  | .fillRead _ => .fillArrival data
  | .writeEnable => .writeEnableEnd
  | .program => .programTransactionEnd
  | .erase => .eraseTransactionEnd
  | .descriptor => .descriptorTransactionEnd data
  | .statusRead => .statusReadEnd b0
  | .errorStatusRead => .errorStatusReadEnd b0
  | .clearStatus => .clearStatusEnd
  | .verifyRead => .verifyReadEnd data
  | .suspendCommand => .suspendCommandEnd
  | .suspendedStatusRead => .suspendedStatusReadEnd b0
  | .resume => .resumeEnd
  | .recoveryReset1 => .recoveryResetCommandEnd
  | .recoveryReset2 => .recoveryResetCommandEnd
  | .recoveryStatusRead => .recoveryStatusReadEnd b0
  | .recoveryIdRead => .recoveryIdReadEnd id
  | .startupReset1 => .startupResetCommandEnd
  | .startupReset2 => .startupResetCommandEnd
  | .startupIdRead => .startupIdReadEnd id
  | .startupStatusRead => .startupStatusReadEnd b0

/-- The command that ends the transaction in progress, for the levels on FIO in its data-in periods (R94, R98). -/
def State.portEnd (s : State) (levels : List Fio) : Option Instr :=
  s.fsq.port.map (fun t => t.use.endCommand (laneBytes t.lanes levels))

end Sys2Proof.Machine
end

