-- ==== Sys2Proof/WellFormed.lean ====
section
/-! DEFINITION. Which commands name an event that the wires can carry. `exec` has a meaning for every term of `Instr`;
an ill-formed one names a frame or a reading of a size that never arrives. -/

namespace Sys2Proof

/-- A payload fits a frame: LEN, which counts KIND and TAG too, is at most 300 (R169). -/
def payloadFits (p : List Byte) : Bool := p.length + 2 ≤ Machine.maxLen

/-- The command is well formed. -/
def Instr.wf : Instr → Bool
  | .openSession _ _ p | .closeSession _ _ p | .nop _ _ p | .getStatus _ _ p | .getStats _ _ p
  | .read _ _ p | .pin _ _ p | .unpin _ _ p | .invalidate _ _ p | .probeLine _ _ p
  | .program _ _ p | .erase _ _ p | .raw _ _ p | .cancelJob _ _ p | .queryJob _ _ p
  | .setProfile _ _ p | .getProfile _ _ p | .resetFlash _ _ p | .resetPart _ _ p
  | .protect _ _ p | .unprotect _ _ p | .listProtect _ _ p => payloadFits p
  | .unknownKind _ kind _ p => payloadFits p && (Machine.kindOfCode kind).isNone
  | .linkAIgnoredTransaction (.select first) => first ≠ 0x5E && first ≠ 0xC3
  | .linkAIgnoredTransaction (.whole first) => first ≠ 0x5E && first ≠ 0xC3
  | .fillArrival data => data.length = Machine.lineSize
  | .descriptorTransactionEnd data => data.length ≤ 16
  | .verifyReadEnd data => 1 ≤ data.length && data.length ≤ 256
  | _ => true

end Sys2Proof
end

