-- ==== Sys2Proof/Safety.lean ====
section
/-! DEFINITION. The words of the statements: which frame is taken, what an answer leaves, which blocks stand
unchanged, and the invariants. Nothing here is part of a meaning. -/

namespace Sys2Proof.Machine

/-! ### Requests -/

/-- The request command of a kind whose frame arrives in a way. -/
def requestBy (k : Kind) (v : Arrival) (tag : Byte) (p : List Byte) : Instr :=
  match k with
  | .openSession => .openSession v tag p
  | .closeSession => .closeSession v tag p
  | .nop => .nop v tag p
  | .getStatus => .getStatus v tag p
  | .getStats => .getStats v tag p
  | .read => .read v tag p
  | .pin => .pin v tag p
  | .unpin => .unpin v tag p
  | .invalidate => .invalidate v tag p
  | .probeLine => .probeLine v tag p
  | .program => .program v tag p
  | .erase => .erase v tag p
  | .raw => .raw v tag p
  | .cancelJob => .cancelJob v tag p
  | .queryJob => .queryJob v tag p
  | .setProfile => .setProfile v tag p
  | .getProfile => .getProfile v tag p
  | .resetFlash => .resetFlash v tag p
  | .resetPart => .resetPart v tag p
  | .protect => .protect v tag p
  | .unprotect => .unprotect v tag p
  | .listProtect => .listProtect v tag p

/-- The request command of a kind whose frame arrives to its end. -/
def requestOf (k : Kind) (l : Link) (tag : Byte) (p : List Byte) : Instr := requestBy k l.arrival tag p

/-- The link status byte that goes out with the first byte of a link A transaction that is taken up now: as taken at the
fall of CS_A_N. -/
def State.statusOut (s : State) : Byte :=
  match s.spi.transaction with
  | .selected b => b
  | _ => s.linkStatusByte

/-- A request of a kind with a payload that fits a frame, sent now, is taken. -/
def State.takesRequest (s : State) (k : Kind) (l : Link) (tag : Byte) (p : List Byte) : Bool :=
  payloadFits p && s.takes l (requestFrame (kindCode k) tag p)

/-- Link A's port once its transaction has ended: the status byte is out, if it was not before. -/
def State.spiRisen (s : State) : SpiPort :=
  { transaction := .none, sdo := if s.spi.transaction.beforeSelector then [s.statusOut] else s.spi.sdo }

/-- The state once a frame of a link is taken: its slot is reserved, FRAMES_TAKEN has risen, the receiver is IDLE, and the
link A transaction it came in has ended. -/
def State.afterTake (s : State) (l : Link) : State :=
  match l with
  | .a => { s.take .a with spi := s.spiRisen }
  | .b => s.take .b

/-- The FREE slots of a link once a frame of link `l` has reserved one. -/
def State.freeAfter (s : State) (l l' : Link) : Nat :=
  if l' = l then (s.link l').freeSlots - 1 else (s.link l').freeSlots

/-- The other link. -/
def otherLink : Link → Link
  | .a => .b
  | .b => .a

/-! ### What an event leaves at the links -/

/-- The other link, link B's transmission, the pins and the queue of commands are as before; so is the link A transaction,
but for one that has carried the frame and has ended with it. -/
def ElsewhereSame (l : Link) (s t : State) : Prop :=
  t.link (otherLink l) = s.link (otherLink l) ∧
  t.spi.transaction = (if l = .a then .none else s.spi.transaction) ∧ t.uart = s.uart ∧
  t.pins = s.pins ∧ t.pending = s.pending

/-- A frame of the link has been taken and FRAMES_TAKEN has risen; the receiver is IDLE; the FIFO holds the given
messages and the RESERVED slots are the given ones, in some order; all else of the links is as before. -/
def FrameTaken (l : Link) (fifo : List Message) (reserved : List Byte) (s t : State) : Prop :=
  (t.link l).fifo = fifo ∧ (t.link l).reserved.Perm reserved ∧
  (t.link l).framesTaken = (s.link l).framesTaken + 1 ∧
  (t.link l).framesRejected = (s.link l).framesRejected ∧ (t.link l).overruns = (s.link l).overruns ∧
  (t.link l).isOpen = (s.link l).isOpen ∧ (t.link l).session = (s.link l).session ∧
  (t.link l).holder = (s.link l).holder ∧ (t.link l).receiver = .idle ∧ (t.link l).buffer = [] ∧
  ElsewhereSame l s t

/-- The frame has been taken and one message placed at the end of the FIFO; no other slot has moved. -/
def Answered (l : Link) (m : Message) (s t : State) : Prop :=
  FrameTaken l ((s.link l).fifo ++ [m]) (s.link l).reserved s t

/-! ### Blocks that stand unchanged -/

/-- Request Table, Line Cache and Fill Table are as before. -/
def ReadSideSame (s t : State) : Prop := t.records = s.records ∧ t.cache = s.cache ∧ t.fills = s.fills

/-- Job Queue, Staging Pool and Protection Table are as before. -/
def JobSideSame (s t : State) : Prop :=
  t.jq = s.jq ∧ t.staging = s.staging ∧ t.protection = s.protection

/-- The jobs, the job history and the buffers are as before but for the RUNNING job's busy time. -/
def JobSideSameButTime (s t : State) : Prop :=
  t.jq.jobs.map Job.id = s.jq.jobs.map Job.id ∧ t.jq.nextId = s.jq.nextId ∧ t.jq.history = s.jq.history ∧
  t.staging = s.staging

/-- Every block behind the links is as before. -/
def BlocksSame (s t : State) : Prop :=
  ReadSideSame s t ∧ JobSideSame s t ∧ t.fsq = s.fsq ∧ t.counters = s.counters

/-- Links, ports and pins are as before. -/
def LinksSame (s t : State) : Prop :=
  t.linkA = s.linkA ∧ t.linkB = s.linkB ∧ t.spi = s.spi ∧ t.uart = s.uart ∧ t.pins = s.pins ∧
  t.pending = s.pending

/-- A request has been refused: its reply carries the status and the form of Table 11-3 for it, and nothing behind the
links has changed. -/
def Refused (k : Kind) (l : Link) (tag : Byte) (p : List Byte) (st : Status) (s t : State) : Prop :=
  Answered l (replyMessage k tag st (refusalPayload k p)) s t ∧ BlocksSame s t

/-- A request has been answered with OK, and nothing behind the links has changed. -/
def AnsweredOnly (k : Kind) (l : Link) (tag : Byte) (payload : List Byte) (s t : State) : Prop :=
  Answered l (replyMessage k tag .ok payload) s t ∧ BlocksSame s t

/-! ### A READ or PIN that is accepted -/

/-- A READ or PIN has been accepted (R29, R31): its record stands in the table with one need for each line it spans, and its
slot is kept; or it has been answered at once, with OK, or in FAULTED with FLASH_FAULT, and no record is left. -/
def Accepted (k : Kind) (rk : RecordKind) (l : Link) (tag : Byte) (r : Range) (s t : State) : Prop :=
  (t.link l).framesTaken = (s.link l).framesTaken + 1 ∧
  ((∃ x ∈ t.records, x.link = l ∧ x.session = (s.link l).session ∧ x.tag = tag ∧ x.kind = rk ∧ x.base = r.base ∧
      x.length = r.length ∧ x.needs.length = lineCount r.base r.length ∧
      (s.fsq.pendingProfile = none ∨ s.fsq.port.isSome = true →
        FrameTaken l (s.link l).fifo ((s.link l).session :: (s.link l).reserved) s t)) ∨
   (∃ m, (t.link l).fifo = (s.link l).fifo ++ [m] ∧ Answered l m s t ∧
      m.kind = replyKind (kindCode k) ∧ m.tag = tag ∧
      (m.status = .ok ∨ (m.status = .flashFault ∧ s.fsq.state = .faulted)) ∧
      (rk = .read → m.status = .flashFault → m.payload = []) ∧
      (rk = .pin → m.status = .ok → m.payload = leBytes 2 (lineCount r.base r.length)) ∧
      ∀ x ∈ t.records, ¬(x.link = l ∧ x.tag = tag)))

/-! ### A READ of bytes of one line -/

/-- A READ frame that is taken on an OPEN link, whose checks pass, over no hold, of bytes inside one line. -/
def plainRead (l : Link) (tag : Byte) (p : List Byte) (s : State) : Bool :=
  s.takesRequest .read l tag p && (s.link l).isOpen && p.length = 6 &&
  (firstFailure (readChecks { link := l, session := (s.link l).session, tag := tag, payload := p } s)).isNone &&
  !s.overlapsHold { base := field p 0 4, length := field p 4 2 } &&
  field p 0 4 % 64 + field p 4 2 ≤ 64

/-- The record it becomes while its one need waits. -/
def waitingRead (l : Link) (tag : Byte) (p : List Byte) (n : NeedState) (s : State) : Record :=
  { link := l, session := (s.link l).session, tag := tag, kind := .read, base := field p 0 4,
    length := field p 4 2, needs := [n], buffer := List.replicate (field p 4 2) none, state := .active,
    pinnedCount := 0, status := .ok }

/-- The entry a need with index 0 creates for the line of an address. -/
def newFill (l : Link) (tag : Byte) (a : Nat) (way : Option (Fin 4)) : Fill :=
  { line := lineAddress a, way := way, doomed := false, phase := .waiting,
    waiters := [{ id := { link := l, tag := tag }, index := 0 }] }

/-! ### Job requests -/

/-- The job a request asks for, and its kind's own checks. -/
def jobAsked (k : Kind) (p : List Byte) (s : State) : Option (JobSpec × List (Bool × Status)) :=
  match k with
  | .program => some (programSpec p, programChecks p s)
  | .erase => some (eraseSpec p, eraseChecks p s)
  | .raw => some (rawSpec p s, rawChecks p s)
  | _ => none

/-- A job request frame is taken on an OPEN link, asks for the given job and passes every check. -/
def jobPasses (k : Kind) (l : Link) (tag : Byte) (p : List Byte) (d : JobSpec) (s : State) : Bool :=
  s.takesRequest k l tag p && (s.link l).isOpen && !wrongSize k p &&
  match jobAsked k p s with
  | some (e, own) => e = d && (firstFailure (own ++ commonChecks l d.kind d.range (s.afterTake l))).isNone
  | none => false

/-- The record of an accepted job (R66, step 1). -/
def acceptedJob (l : Link) (d : JobSpec) (s : State) : Job :=
  { id := s.jq.nextId, kind := d.kind, origin := l, session := (s.link l).session, deliver := true,
    range := d.range, staging := if d.kind = .program then s.lowestFreeBuffer else none, verify := d.verify,
    raw := d.raw, phase := none, suspendCount := 0, busyTime := 0, dataIn := [], outcome := none }

/-- What the acceptance of a job leaves behind the links, the jobs apart (R60, R61, R66, R81). -/
def AcceptanceDone (d : JobSpec) (s t : State) : Prop :=
  t.jq.nextId = (if s.jq.nextId = 0xFFFF then 1 else s.jq.nextId + 1) ∧ t.jq.history = s.jq.history ∧
  (∀ b : Fin 4, t.staging[b] =
    if d.kind = .program ∧ s.lowestFreeBuffer = some b then some d.data else s.staging[b]) ∧
  t.protection = s.protection ∧ t.records = s.records ∧
  (d.range = none → t.cache = s.cache ∧ t.fills = s.fills ∧ t.counters = s.counters) ∧
  (∀ r, d.range = some r →
    (∀ (i : Fin 128) (w : Fin 4), (t.set i).ways[w] =
      if (s.set i).ways[w].isValid && lineInRange (wayLine i (s.set i).ways[w].tag) r then .invalid
      else (s.set i).ways[w]) ∧
    (∀ f ∈ t.fills, lineInRange f.line r = true → f.doomed = true) ∧
    t.fills.map Fill.line = s.fills.map Fill.line)

/-! ### The flash port and the end of a job -/

/-- The transaction of a job is on the port, its job is RUNNING and no RESET_FLASH waits for its end. -/
def State.jobSends (s : State) (use : TransactionUse) (j : Job) : Bool :=
  s.portIs use && s.running = some j && !s.fsq.resetDue

/-- A transaction is on the port and no RESET_FLASH waits for its end. -/
def State.sends (s : State) (use : TransactionUse) : Bool := s.portIs use && !s.fsq.resetDue

/-- FSQ as before but for a transaction begun; no wait runs. -/
def Fsq.sending (q : Fsq) (t : Transaction) : Fsq := { q with port := some t, wait := .none, waitTime := 0 }

/-- FSQ as before but for the transaction ended and a wait begun. -/
def Fsq.waiting (q : Fsq) (w : Wait) : Fsq := { q with port := none, wait := w, waitTime := 0 }

/-- The RUNNING job has ended (R69): it has left the head of the queue, its buffer is free, its history entry is
appended, its counter has risen, and its JOB_DONE stands next in its link's FIFO, if it is to be delivered there. -/
def JobGone (j : Job) (o : Status) (s t : State) : Prop :=
  t.jq.jobs.map Job.id = s.jq.jobs.tail.map Job.id ∧ t.jq.nextId = s.jq.nextId ∧
  t.jq.history = appendHistory s.jq.history (j.entry o) ∧ t.staging = (s.freeStaging j).staging ∧
  t.counters.jobOk = s.counters.jobOk + (if o = .ok then 1 else 0) ∧
  t.counters.jobFailed = s.counters.jobFailed + (if o = .ok then 0 else 1) ∧
  t.protection = s.protection ∧
  (j.deliver = true → j.session ∈ (s.link j.origin).reserved → (s.link j.origin).isOpen = true →
    ((s.link j.origin).fifo ++ [jobDoneNotice j o]) <+: (t.link j.origin).fifo)

/-- FSQ has entered RECOVERING from a running operation (R135). -/
def RecoveryBegun (q : Fsq) (probe : Bool) (t : Fsq) : Prop :=
  t.state = .recovering ∧ t.cause = .none ∧ t.attempt = 1 ∧ t.recoveryTime = 0 ∧ t.probe = probe ∧
  t.port = some (oneByte .recoveryReset1 q.active.firstReset) ∧ t.wait = .none ∧ t.active = q.active

/-- A line read for a fill is on the port (R102): the profile's read command, dummy clocks and lanes. -/
def Fsq.reads (q : Fsq) (line : Nat) : Fsq :=
  q.sending ⟨.fillRead line, q.active.readCommand, beBytes (addressBytesOf q.capCode) line, [], q.active.readDummy, 64,
    q.active.readLanes⟩

/-- The entries with the one of a line in TRANSFER (R46). -/
def transferring (line : Nat) (fs : List Fill) : List Fill :=
  fs.map (fun g => if g.line = line then { g with phase := .transfer } else g)

/-- FSQ has started a QUEUED job, now the head (R104): RUNNING in ISSUE, with its write-enable on the port, or its
descriptor transaction where a RAW job has no write-enable first. -/
def JobStarted (k : Job) (q : Fsq) (t : State) : Prop :=
  t.jq.jobs.head? = some { k with phase := some .issue } ∧
  ∃ x, t.fsq = { q.sending x with state := .job, burst := 0 } ∧
    (k.writeEnableFirst = true → x = oneByte .writeEnable q.active.writeEnable) ∧
    (∀ r, k.raw = some r → r.writeEnableFirst = false → k.kind = .raw →
      x = ⟨.descriptor, r.command, (match r.address with
        | some a => beBytes (addressBytesOf q.capCode) a
        | none => []), r.dataOut, r.dummy, r.dataInCount, 1⟩)

/-- FSQ has gone on from READY after the head job's end (R100, R101, R111, R115): a pending profile is active; else, with no
record PARKED, the oldest WAITING entry is served, or the next job is started, or FSQ is READY with its port free. Before a
RESET_FLASH of the same instant no job is started (R112, log 30). -/
def FsqGoesOn (s t : State) : Prop :=
  (∀ p, s.fsq.pendingProfile = some p → t.fsq.active = p.profile ∧ t.fsq.pendingProfile = none) ∧
  (s.fsq.pendingProfile = none → (∀ r ∈ s.records, r.state = .active) → (∀ k ∈ s.jq.jobs.tail, k.phase = none) →
    t.records = s.records ∧ t.cache = s.cache ∧
    (∀ f, s.oldestWaiting = some f → t.fills = transferring f.line s.fills ∧ t.jq.jobs = s.jq.jobs.tail ∧
      t.fsq = { s.fsq.reads f.line with state := .reading, burst := if s.jq.jobs.tail = [] then 0 else 1 }) ∧
    (s.oldestWaiting = none → t.fills = s.fills ∧
      (s.jq.jobs.tail = [] → t.fsq = { s.fsq with port := none, state := .ready, burst := 0 }) ∧
      (∀ k rest, s.jq.jobs.tail = k :: rest →
        if (s.setFlash .ready).resetNext = none then JobStarted k s.fsq t
        else t.jq.jobs = s.jq.jobs.tail ∧ t.fsq = { s.fsq with port := none, state := .ready, burst := 0 })))

/-- A job's last issue transaction has ended: phase BUSY, the first status read begun, the segment time 0 (R108, R121). -/
def busyBegun (s : State) (f : Job → Job) : State :=
  { s with
    jq := { s.jq with jobs := s.jq.jobs.modifyHead (fun x => { f x with phase := some .busy }) }
    fsq := { s.fsq.sending (readBytes .statusRead s.fsq.active.statusCommand 1) with segTime := 0 } }

/-- A PROGRAM enters VERIFY: FSQ READING, the verify read of its range begun (R110). -/
def verifyBegun (s : State) (r : Range) : State :=
  { s with
    jq := { s.jq with jobs := s.jq.jobs.modifyHead (fun x => { x with phase := some .verify }) }
    fsq := { s.fsq.sending
        ⟨.verifyRead, s.fsq.active.readCommand, beBytes (addressBytesOf s.fsq.capCode) r.base, [],
          s.fsq.active.readDummy, r.length, s.fsq.active.readLanes⟩ with
      state := .reading } }

/-- Recovery has ended in READY (R139), told for a part with nothing else to do: the list of RESET_FLASH requests is
empty and its replies, for the one request it held, or none, are placed with OK; FLASH_STATE goes to each OPEN link
where the origin was FAULTED. With the head job QUEUED and no entry WAITING it is started, and with no job the oldest WAITING
entry is served, but before a RESET_FLASH of the same instant nothing is begun (R143, log 30). -/
def ReadyAgain (id : FlashId) (s t : State) : Prop :=
  t.fsq.flashId = id ∧ t.fsq.resetRequests = [] ∧ t.cache = s.cache ∧ t.records = s.records ∧
  t.staging = s.staging ∧ t.protection = s.protection ∧ t.jq.history = s.jq.history ∧
  (s.fsq.pendingProfile = none →
    if (s.setFlash .ready).resetNext = none then
      (∀ k rest, s.jq.jobs = k :: rest → k.phase = none → s.oldestWaiting = none →
        JobStarted k { s.fsq with flashId := id, resetRequests := [] } t) ∧
      (∀ f, s.oldestWaiting = some f → s.jq.jobs = [] →
        t.fills = transferring f.line s.fills ∧
        t.fsq = { ({ s.fsq with flashId := id, resetRequests := [] } : Fsq).reads f.line with state := .reading })
    else t.jq = s.jq ∧ t.fills = s.fills ∧
      t.fsq = { s.fsq with port := none, state := .ready, flashId := id, resetRequests := [] }) ∧
  (s.jq.jobs = [] → s.fills = [] → s.fsq.pendingProfile = none →
    t.fsq = { s.fsq with port := none, state := .ready, flashId := id, resetRequests := [] } ∧
    t.jq = s.jq ∧ t.fills = [] ∧ t.counters = s.counters ∧
    (s.fsq.resetRequests = [] → ∀ l, (t.link l).fifo = (s.link l).fifo) ∧
    (∀ q, s.fsq.resetRequests = [q] → q.muted = false → q.session ∈ (s.link q.link).reserved →
      (s.link q.link).isOpen = true →
      (t.link q.link).fifo = (s.link q.link).fifo ++ [replyMessage .resetFlash q.tag .ok []]) ∧
    (∀ l, (t.link l).holder =
      if s.fsq.origin = .faulted ∧ (s.link l).isOpen = true then some (flashStateNotice t.fsq)
      else (s.link l).holder))

/-- What a waiting READ or PIN is answered at the entry to FAULTED: no data, the count of lines pinned (R36, R37, R56). -/
def Record.faultReply (r : Record) : Message :=
  match r.kind with
  | .read => replyMessage .read r.tag .flashFault []
  | .pin => replyMessage .pin r.tag .flashFault (leBytes 2 r.pinnedCount)

/-- What the entry to FAULTED places on a link, in this order: the replies of the records, the JOB_DONE notices that are to
be delivered, the SET_PROFILE reply and the RESET_FLASH replies of sessions that have not ended (R140, steps 2 to 5). -/
def State.faultMessages (s : State) (l : Link) : List Message :=
  (s.records.filter (fun r => r.link = l)).map Record.faultReply ++
  (s.jq.jobs.filter (fun j => j.origin = l && j.deliver)).map (fun j => jobDoneNotice j .flashFault) ++
  (s.fsq.pendingProfile.toList.filter (fun p => p.link = l && !p.muted)).map
    (fun p => replyMessage .setProfile p.tag .flashFault []) ++
  (s.fsq.resetRequests.filter (fun q => q.link = l && !q.muted)).map
    (fun q => replyMessage .resetFlash q.tag .flashFault [])

/-- The link's session is OPEN, and each message that the entry to FAULTED places there is of this session and has its slot
reserved. -/
def State.faultSlotsReady (s : State) (l : Link) : Prop :=
  (s.link l).isOpen = true ∧ (∀ x ∈ (s.link l).reserved, x = (s.link l).session) ∧
  (s.faultMessages l).length ≤ (s.link l).reserved.length ∧
  (∀ r ∈ s.records, r.link = l → r.session = (s.link l).session) ∧
  (∀ j ∈ s.jq.jobs, j.origin = l → j.deliver = true → j.session = (s.link l).session) ∧
  (∀ p ∈ s.fsq.pendingProfile.toList, p.link = l → p.muted = false → p.session = (s.link l).session) ∧
  (∀ q ∈ s.fsq.resetRequests, q.link = l → q.muted = false → q.session = (s.link l).session)

/-- No record is in use, or one with one need, which waits: for the arrival of an entry, for a slot or for a way. -/
def State.oneNeedWaits (s : State) : Prop :=
  (s.records = [] ∧ ∀ f ∈ s.fills, f.waiters = []) ∨
  (∃ r ∈ s.records, s.records = [r] ∧ r.state = .active ∧
    ((r.needs = [.waitFill] ∧ s.fills.flatMap Fill.waiters = [{ id := r.id, index := 0 }]) ∨
     ((r.needs = [.waitSlot] ∨ r.needs = [.waitWay]) ∧ ∀ f ∈ s.fills, f.waiters = [])))

/-- FSQ has entered FAULTED from RECOVERING (R140). Every entry has ended and no way is FILLING; every job has ended with
FLASH_FAULT, in queue order; the pending profile and the RESET_FLASH requests are answered FLASH_FAULT, and so is a record
that waits. A READ that is PARKED is released at the end of its hold and fails on a miss. -/
def FaultedNow (c : FaultCause) (id : FlashId) (s t : State) : Prop :=
  t.fsq.state = .faulted ∧ t.fsq.cause = c ∧ t.fsq.flashId = id ∧ t.fsq.active = s.fsq.active ∧
  t.fsq.port = none ∧ t.fsq.wait = .none ∧ t.fsq.resetDue = false ∧ t.fills = [] ∧
  (∀ (i : Fin 128) (w : Fin 4), (t.set i).ways[w].isFilling = false ∧
    ((s.set i).ways[w].isValid = true → (t.set i).ways[w].isValid = true ∧
      (t.set i).ways[w].tag = (s.set i).ways[w].tag)) ∧
  t.jq.jobs = [] ∧ t.jq.nextId = s.jq.nextId ∧
  t.jq.history = s.jq.jobs.foldl (fun h j => appendHistory h (j.entry .flashFault)) s.jq.history ∧
  t.counters.jobFailed = s.counters.jobFailed + BitVec.ofNat 32 s.jq.jobs.length ∧
  t.counters.jobOk = s.counters.jobOk ∧ t.fsq.burst = (if s.jq.jobs = [] then s.fsq.burst else 0) ∧
  (∀ b : Fin 4, t.staging[b] = if (∃ j ∈ s.jq.jobs, j.staging = some b) then none else s.staging[b]) ∧
  t.fsq.pendingProfile = none ∧ t.fsq.resetRequests = [] ∧ t.protection = s.protection ∧
  (∀ l, (t.link l).isOpen = (s.link l).isOpen ∧
    (t.link l).holder = if (s.link l).isOpen = true then some (flashStateNotice t.fsq) else (s.link l).holder) ∧
  (s.oneNeedWaits →
    t.records = [] ∧
    t.counters = { s.counters with
      jobFailed := s.counters.jobFailed + BitVec.ofNat 32 s.jq.jobs.length } ∧
    (∀ (i : Fin 128) (w : Fin 4), (t.set i).ways[w] =
      if (s.set i).ways[w].isFilling then .invalid else (s.set i).ways[w]) ∧
    (∀ l, s.faultSlotsReady l → (t.link l).fifo = (s.link l).fifo ++ s.faultMessages l ∧
      (t.link l).reserved.length + (s.faultMessages l).length = (s.link l).reserved.length)) ∧
  (∀ r, s.records = [r] → ∀ j, s.jq.jobs = [j] → (∀ f ∈ s.fills, f.waiters = []) → r.state = .parked →
    r.kind = .read → r.needs = [.waitRelease] → s.overlapsHold r.range = true →
    (s.set (setIndex r.base)).hit (cacheTag r.base) = none →
    t.records = [] ∧ t.counters.lookupMiss = s.counters.lookupMiss + 1 ∧
    (s.faultSlotsReady r.link → s.fsq.pendingProfile = none → s.fsq.resetRequests = [] →
      (t.link r.link).fifo = (s.link r.link).fifo ++
        (if j.origin = r.link ∧ j.deliver = true then [jobDoneNotice j .flashFault] else []) ++ [r.faultReply]))

/-! ### Invariants -/

/-- R160: reserved and occupied slots never exceed 16. -/
def LinkState.slotsFit (k : LinkState) : Prop := k.reserved.length + k.fifo.length ≤ slotLimit

/-- R160, and what R153 says of a frame in reception on either link: its slot is still FREE. -/
def SlotsOk (s : State) : Prop :=
  s.linkA.slotsFit ∧ s.linkB.slotsFit ∧ (s.linkA.receiver = .receiving → 1 ≤ s.linkA.freeSlots) ∧
  (s.linkB.receiver = .receiving → 1 ≤ s.linkB.freeSlots)

/-- R160: every reservation carries the session number of the link's present session; a CLOSED link holds none. -/
def LinkState.reservedNow (k : LinkState) : Prop :=
  (∀ x ∈ k.reserved, x = k.session) ∧ (k.isOpen = false → k.reserved = [])

/-- Both links. -/
def ReservationsOk (s : State) : Prop := s.linkA.reservedNow ∧ s.linkB.reservedNow

/-- R4: a set's recency list is a permutation of its way numbers. -/
def CacheSet.recencyOk (c : CacheSet) : Prop := c.recency.Perm [0, 1, 2, 3]

/-- R4 in every set. -/
def RecencyOk (s : State) : Prop := ∀ i : Fin 128, (s.set i).recencyOk

/-- R59: at most 8 jobs, and every job behind the head is QUEUED. -/
def QueueOk (s : State) : Prop := s.jq.jobs.length ≤ jobLimit ∧ ∀ j ∈ s.jq.jobs.tail, j.phase = none

/-- R75, R103, R23, R41: the bounds of the history, the burst counter, the records of each link and the entries. -/
def BoundsOk (s : State) : Prop :=
  s.jq.history.length ≤ historyLimit ∧ s.fsq.burst ≤ burstLimit ∧
  (s.recordsOf .a).length ≤ recordLimit ∧ (s.recordsOf .b).length ≤ recordLimit ∧
  s.fills.length ≤ fillLimit

/-- R42: no two entries have one line address. -/
def FillLinesOk (s : State) : Prop := (s.fills.map Fill.line).Nodup

/-- R24: no two records of one link carry the same tag. -/
def TagsOk (s : State) : Prop := (s.records.map Record.id).Nodup

/-- Every line address of the Fill Table is a multiple of 64 (R41). -/
def AlignedOk (s : State) : Prop := ∀ f ∈ s.fills, f.line % 64 = 0

/-- R3: a set holds any one cache tag in at most one way that is FILLING or VALID. -/
def CacheSet.tagsOk (c : CacheSet) : Prop :=
  ∀ w v : Fin 4, c.ways[w] ≠ .invalid → c.ways[v] ≠ .invalid → c.ways[w].tag = c.ways[v].tag → w = v

/-- R41: a way is FILLING when and only when an entry is bound to it, and then with that entry's tag. -/
def BoundOk (s : State) : Prop :=
  (∀ f ∈ s.fills, ∀ w, f.way = some w → (s.set (setIndex f.line)).ways[w] = .filling (cacheTag f.line)) ∧
  (∀ (i : Fin 128) (w : Fin 4) (t : Nat), (s.set i).ways[w] = .filling t →
    ∃ f ∈ s.fills, f.way = some w ∧ setIndex f.line = i)

/-- R3, R41 and R42 together: one copy of a line in its set, one entry for a line, and each FILLING way bound. -/
def CacheOk (s : State) : Prop :=
  (∀ i : Fin 128, (s.set i).tagsOk) ∧ BoundOk s ∧ FillLinesOk s ∧ AlignedOk s

/-- A record has one need for each line it spans (R22). -/
def Record.sized (r : Record) : Prop := 0 < r.length ∧ r.needs.length = lineCount r.base r.length

/-- Every waiter is a need of a record in use (R41). -/
def WaitersOk (s : State) : Prop :=
  ∀ f ∈ s.fills, ∀ w ∈ f.waiters, ∃ r ∈ s.records, r.id = w.id ∧ w.index < r.needs.length

/-- While FSQ is STARTING nothing is held behind the links, the links are CLOSED and hold nothing, and the port carries
no transaction but start-up's; while RST_N is asserted FSQ is STARTING and does nothing (R117, R119, R168). -/
def StartingOk (s : State) : Prop :=
  (s.pins.rstAsserted = true → s.fsq.state = .starting ∧ s.fsq.port = none ∧ s.fsq.wait = .none) ∧
  (s.fsq.state = .starting →
    s.records = [] ∧ s.fills = [] ∧ s.jq.jobs = [] ∧ s.fsq.pendingProfile = none ∧
    s.fsq.resetRequests = [] ∧ s.fsq.resetDue = false ∧
    (∀ x, s.fsq.port = some x →
      x.use ∈ [.startupReset1, .startupReset2, .startupIdRead, .startupStatusRead]) ∧
    s.fsq.wait ∈ [Wait.none, .settle, .startupRecovery, .startupPoll] ∧
    (∀ l, (s.link l).isOpen = false ∧ (s.link l).fifo = [] ∧ (s.link l).reserved = [] ∧
      (s.link l).holder = none ∧ (s.link l).receiver ≠ .receiving))

/-- R82: no line of a job's range is VALID and every entry in it is doomed. -/
def HoldsClear (s : State) : Prop :=
  ∀ j ∈ s.jq.jobs, ∀ r : Range, j.range = some r →
    (∀ (i : Fin 128) (w : Fin 4), (s.set i).ways[w].isValid = true →
      lineInRange (wayLine i (s.set i).ways[w].tag) r = false) ∧
    (∀ f ∈ s.fills, lineInRange f.line r = true → f.doomed = true)

/-- R83, the stronger form: no line spanned by a PIN in progress is a held line. -/
def PinsClear (s : State) : Prop :=
  ∀ q ∈ s.records, q.kind = .pin → s.overlapsHold q.range = false

/-- R82 and R83 with what they rest on: the recency lists, the tags, the sizes of records and ranges, and the waiters. -/
def HoldOk (s : State) : Prop :=
  HoldsClear s ∧ PinsClear s ∧ RecencyOk s ∧ TagsOk s ∧ AlignedOk s ∧ WaitersOk s ∧
  (∀ r ∈ s.records, r.sized) ∧ (∀ j ∈ s.jq.jobs, ∀ r : Range, j.range = some r → 0 < r.length)

end Sys2Proof.Machine
end

