-- ==== Sys2Proof/Certificates/Slice0/Obligations.lean ====
section
/-! DEFINITION. The statements for the provers. -/

open Sys2Proof Sys2Proof.Machine

/-! ### The step -/

/-- A step runs the command at the front of the queue on the state with the queue's rest. -/
def Obligations.StepRunsFrontCommand : Prop :=
  ∀ (c : Instr) (rest : List Instr) (s : State), s.pending = c :: rest →
    step s = exec c { s with pending := rest }

/-- The model's choice (log 5): on an empty queue a step lets 1 us pass if no timer's event is due before that, and else
does nothing. In 1 us each timer grows by at most 1, the RUNNING job's busy time as the segment time does, and nothing
else changes. -/
def Obligations.IdleStepOnlyPassesTime : Prop :=
  ∀ s : State, s.pending = [] →
    step s = .next (if s.canPass 1 then s.advance 1 else s) ∧
    ∃ g wait byte start suspend recovery : Nat,
      g ≤ 1 ∧ wait ≤ s.fsq.waitTime + 1 ∧ byte ≤ s.linkB.interByte + 1 ∧ start ≤ s.fsq.startupTime + 1 ∧
      suspend ≤ s.fsq.suspendTime + 1 ∧ recovery ≤ s.fsq.recoveryTime + 1 ∧
      step s = .next { s with
        jq := { s.jq with jobs := s.jq.jobs.modifyHead (fun j => { j with busyTime := j.busyTime + g }) },
        linkB := { s.linkB with interByte := byte },
        fsq := { s.fsq with
          waitTime := wait, segTime := s.fsq.segTime + g, startupTime := start, suspendTime := suspend,
          recoveryTime := recovery } }

/-! ### Resets -/

/-- The values the spec gives for reset, at `State.reset`. -/
def Obligations.ResetValues : Prop :=
  (∀ (i : Fin 128) (w : Fin 4), (State.reset.set i).ways[w] = .invalid ∧
    (State.reset.set i).recency = [0, 1, 2, 3] ∧ (State.reset.set i).claims = 0) ∧
  State.reset.records = [] ∧ State.reset.fills = [] ∧ State.reset.jq.jobs = [] ∧
  State.reset.jq.history = [] ∧ State.reset.jq.nextId = 1 ∧ (∀ b : Fin 4, State.reset.staging[b] = none) ∧
  (∀ n : Fin 8, State.reset.protection[n] = none) ∧ State.reset.counters = .zero ∧
  State.reset.fsq.state = .starting ∧ State.reset.fsq.cause = .none ∧
  State.reset.fsq.startCause = .powerOn ∧ State.reset.fsq.flashId = ⟨0, 0, 0⟩ ∧
  State.reset.fsq.active = defaultProfile ∧ State.reset.fsq.pendingProfile = none ∧
  State.reset.fsq.burst = 0 ∧ State.reset.fsq.port = none ∧
  (∀ l, (State.reset.link l).isOpen = false ∧ (State.reset.link l).session = 0 ∧
    (State.reset.link l).receiver = .idle ∧ (State.reset.link l).fifo = [] ∧
    (State.reset.link l).reserved = [] ∧ (State.reset.link l).holder = none ∧
    (State.reset.link l).framesTaken = 0 ∧ (State.reset.link l).framesRejected = 0 ∧
    (State.reset.link l).overruns = 0)

/-- POWER_ON leaves the whole part as after reset, with the straps sampled. The model has the straps as operands
(log 10), RST_N deasserted and the level of CTS_B_N as it was (log 17), no link A transaction in progress (log 29), and values
with no meaning at 0 (log 12). -/
def Obligations.PowerOnResetsThePart : Prop :=
  ∀ (cap : Fin 8) (baud : Fin 4) (s : State),
    exec (.powerOn cap baud) s = .next { State.reset with
      pending := s.pending, pins := { s.pins with rstAsserted := false, cap := cap, baud := baud },
      uart := { baud := baud, tx := none }, fsq := { State.reset.fsq with capCode := cap } }

/-- The assertion of RST_N clears every block, the Protection Table with its locked entries too, cuts the port, and
neither link is ready while it lasts; SDO_A is high impedance, a link A transaction that it meets or that begins under it is
ignored to its rise, and link B's bytes are ignored, with nothing counted. Its release samples the straps and enters STARTING
with cause PIN. The model: straps as operands (log 10), meaningless values at 0 (log 12), the parts of a frame (log 2) and of a
fetch (log 4), and that a transaction once ignored stays so to its rise, after the release too (log 4). -/
def Obligations.PinResetClearsAndRestarts : Prop :=
  (∀ s : State, ∃ t, exec .pinResetAssert s = .next t ∧
    t.cache = State.reset.cache ∧ t.records = [] ∧ t.fills = [] ∧ t.jq = State.reset.jq ∧
    t.staging = State.reset.staging ∧ t.protection = State.reset.protection ∧ t.counters = .zero ∧
    t.linkA = State.reset.linkA ∧ t.linkB = State.reset.linkB ∧ t.uart.tx = none ∧ t.fsq.port = none ∧
    t.fsq.wait = .none ∧ t.pins = { s.pins with rstAsserted := true } ∧ t.pending = s.pending ∧
    t.rdyA = false ∧ t.rtsB = false ∧ t.attnA = false ∧ t.attnB = false ∧ t.sdoDriven = false ∧
    t.spi.transaction = (if s.spi.transaction = .none then .none else .ignored)) ∧
  (∀ (cap : Fin 8) (baud : Fin 4) (s : State), s.pins.rstAsserted = true →
    ∃ t, exec (.pinResetRelease cap baud) s = .next t ∧
      t.fsq = Fsq.starting .pin cap ∧ t.pins = { s.pins with rstAsserted := false, cap := cap, baud := baud } ∧
      t.uart = { s.uart with baud := baud } ∧ t.counters = .zero ∧ ReadSideSame s t ∧ JobSideSame s t ∧
      t.spi = s.spi ∧ t.pending = s.pending ∧
      (∀ l, (t.link l).framesTaken = 0 ∧ (t.link l).framesRejected = 0 ∧ (t.link l).overruns = 0 ∧
        (t.link l).isOpen = (s.link l).isOpen ∧ (t.link l).fifo = (s.link l).fifo ∧
        (t.link l).reserved = (s.link l).reserved ∧ (t.link l).holder = (s.link l).holder)) ∧
  (∀ (k : Kind) (tag : Byte) (p : List Byte) (n : Nat) (s : State),
    (s.pins.rstAsserted = true → s.spi.transaction = .none →
      exec (requestBy k (.aUpTo n) tag p) s = .next { s with spi := { transaction := .ignored, sdo := [] } } ∧
      exec (.fetch .select) s = .next { s with spi := { transaction := .ignored, sdo := [] } }) ∧
    (s.spi.transaction = .ignored →
      exec (requestBy k (.aUpTo n) tag p) s = .next s ∧
      exec (requestOf k .a tag p) s = .next { s with spi := { s.spi with transaction := .none } } ∧
      exec (.fetch (.finish n)) s = .next { s with spi := { s.spi with transaction := .none } } ∧
      exec .linkAOverrun s = .next { s with spi := { s.spi with transaction := .none } }) ∧
    (s.pins.rstAsserted = true →
      (∀ b, exec (.linkBByteReceived b) s = .next s) ∧ exec .linkBOverrun s = .next s ∧
      exec (requestOf k .b tag p) s = .next s ∧ ∀ r, exec (.frameReject .b r) s = .next s))

/-- An accepted RESET_PART, on an OPEN or a CLOSED link: no reply, both links and every block cleared, locked
protection entries kept in their slots, FSQ in STARTING with cause RESET_PART. A link A transaction that one on link B
meets is ignored from there on, with the bytes shifted out before it kept. The model samples the levels of pins.cap and
pins.baud (log 10) and puts values with no meaning at 0 (log 12). -/
def Obligations.ResetPartKeepsLockedEntries : Prop :=
  ∀ (l : Link) (tag : Byte) (s : State), s.takesRequest .resetPart l tag [] = true →
    ∃ t, exec (.resetPart l.arrival tag []) s = .next t ∧
      t.linkA = State.reset.linkA ∧ t.linkB = State.reset.linkB ∧ t.uart = { baud := s.pins.baud, tx := none } ∧
      t.cache = State.reset.cache ∧ t.records = [] ∧ t.fills = [] ∧ t.jq = State.reset.jq ∧
      t.staging = State.reset.staging ∧ t.counters = .zero ∧ t.fsq = Fsq.starting .resetPart s.pins.cap ∧
      t.pins = s.pins ∧ t.pending = s.pending ∧
      (∀ n : Fin 8, t.protection[n] = match s.protection[n] with
        | some e => if e.locked then some e else none
        | none => none) ∧
      (l = .a → t.spi.transaction = .none) ∧
      (l = .b → t.spi = { s.spi with
        transaction := if s.spi.transaction = .none then .none else .ignored })

/-! ### Start-up -/

/-- The settle wait ends with the first reset command; after it the second; after that the recovery wait begins. 20
us after a start-up status read the next one is begun; 10 ms after the first, start-up ends in FAULTED with
STUCK_BUSY between reads, while in a read only the time stands at its limit. The model: an expiry lets the time
left to it pass (log 6). -/
def Obligations.StartupTakesItsTimes : Prop :=
  ∀ s : State,
    (s.fsq.wait = .startupPoll → s.canPass (20 - s.fsq.waitTime) = true →
      exec .startupPollIntervalExpiry s = .next ((s.advance (20 - s.fsq.waitTime)).updFsq
        (fun q => q.sending (readBytes .startupStatusRead s.fsq.active.statusCommand 1)))) ∧
    (s.fsq.wait = .startupPoll → s.canPass (10000 - s.fsq.startupTime) = true →
      ∃ t, exec .startupBusyLimitExpiry s = .next t ∧ t.fsq.state = .faulted ∧ t.fsq.cause = .stuckBusy ∧
        t.fsq.wait = .none ∧ (∀ l, (t.link l).holder = some (startNotice t.fsq))) ∧
    (s.fsq.wait ≠ .startupPoll → s.portIs .startupStatusRead = true →
      s.canPass (10000 - s.fsq.startupTime) = true → s.fsq.startupTime ≤ 10000 →
      ∃ t, exec .startupBusyLimitExpiry s = .next t ∧ t.fsq.startupTime = 10000 ∧
        t.fsq.port = s.fsq.port ∧ t.fsq.state = s.fsq.state) ∧
    (s.fsq.wait = .settle → s.canPass (5000 - s.fsq.waitTime) = true →
      exec .startupSettleEnd s = .next ((s.advance (5000 - s.fsq.waitTime)).updFsq
        (fun q => q.sending (oneByte .startupReset1 s.fsq.active.firstReset)))) ∧
    (s.portIs .startupReset1 = true →
      exec .startupResetCommandEnd s = .next (s.updFsq
        (fun q => q.sending (oneByte .startupReset2 s.fsq.active.secondReset)))) ∧
    (s.portIs .startupReset2 = true →
      exec .startupResetCommandEnd s = .next (s.updFsq (fun q => q.waiting .startupRecovery)))

/-- The start-up recovery wait ends with the ID read; an ID all 0x00 or all 0xFF ends start-up in FAULTED with
cause ABSENT and gives START to both holders; any other is kept, and the first status read begins the 10 ms. The
model: a wait's end lets the time left to it pass (log 6). -/
def Obligations.StartupIdentifies : Prop :=
  ∀ s : State,
    (s.fsq.wait = .startupRecovery →
      s.canPass (s.fsq.active.recoveryWait * 1000 - s.fsq.waitTime) = true →
      exec .startupRecoveryWaitEnd s = .next
        ((s.advance (s.fsq.active.recoveryWait * 1000 - s.fsq.waitTime)).updFsq
          (fun q => q.sending (readBytes .startupIdRead 0x9F 3)))) ∧
    (s.portIs .startupIdRead = true → ∀ id : FlashId,
      (id = ⟨0, 0, 0⟩ ∨ id = ⟨0xFF, 0xFF, 0xFF⟩ →
        ∃ t, exec (.startupIdReadEnd id) s = .next t ∧
          t.fsq = { s.fsq with port := none, flashId := id, state := .faulted, cause := .absent, wait := .none } ∧
          (∀ l, (t.link l).holder = some (startNotice t.fsq) ∧ (t.link l).fifo = (s.link l).fifo ∧
            (t.link l).isOpen = (s.link l).isOpen) ∧ ReadSideSame s t ∧ JobSideSame s t) ∧
      (id ≠ ⟨0, 0, 0⟩ ∧ id ≠ ⟨0xFF, 0xFF, 0xFF⟩ →
        exec (.startupIdReadEnd id) s = .next (s.updFsq (fun q =>
          { q with port := some (readBytes .startupStatusRead s.fsq.active.statusCommand 1), wait := .none,
                   waitTime := 0, flashId := id, startupTime := 0 }))))

/-- A start-up status read that reads busy clear ends start-up in READY with START in both holders and nothing to do;
one that reads it set ends in FAULTED with STUCK_BUSY once 10 ms have passed, and else leads to the next read. -/
def Obligations.StartupChecksIdle : Prop :=
  ∀ (b : Byte) (s : State), s.portIs .startupStatusRead = true → s.fills = [] → s.jq.jobs = [] →
    s.fsq.pendingProfile = none →
    (b &&& s.fsq.active.busyMask = 0 →
      ∃ t, exec (.startupStatusReadEnd b) s = .next t ∧
        t.fsq = { s.fsq with port := none, state := .ready, wait := .none } ∧
        (∀ l, (t.link l).holder = some (startNotice t.fsq) ∧ (t.link l).fifo = (s.link l).fifo) ∧
        ReadSideSame s t ∧ JobSideSame s t ∧ t.counters = s.counters) ∧
    (b &&& s.fsq.active.busyMask ≠ 0 → 10000 ≤ s.fsq.startupTime →
      ∃ t, exec (.startupStatusReadEnd b) s = .next t ∧
        t.fsq = { s.fsq with port := none, state := .faulted, cause := .stuckBusy, wait := .none } ∧
        (∀ l, (t.link l).holder = some (startNotice t.fsq) ∧ (t.link l).fifo = (s.link l).fifo)) ∧
    (b &&& s.fsq.active.busyMask ≠ 0 → s.fsq.startupTime < 10000 →
      exec (.startupStatusReadEnd b) s = .next (s.updFsq (fun q => q.waiting .startupPoll)))

/-! ### Taking and answering frames -/

/-- On a CLOSED link every kind but OPEN and RESET_PART is refused, and the refusal is discarded at placement: the
frame counts and nothing else changes. The command is the rest of the frame (log 2). -/
def Obligations.ClosedLinkDiscardsItsRefusals : Prop :=
  ∀ (k : Kind) (l : Link) (tag : Byte) (p : List Byte) (s : State),
    k ≠ .openSession → k ≠ .resetPart → s.takesRequest k l tag p = true → (s.link l).isOpen = false →
    ∃ t, exec (requestOf k l tag p) s = .next t ∧
      FrameTaken l (s.link l).fifo (s.link l).reserved s t ∧ BlocksSame s t

/-- A payload whose size is wrong for its kind is refused with BAD_FIELD before any field check; an OPEN or RESET_PART of
a wrong size on a CLOSED link has its refusal discarded. -/
def Obligations.WrongSizeIsBadField : Prop :=
  ∀ (k : Kind) (l : Link) (tag : Byte) (p : List Byte) (n : Nat) (s : State),
    fixedSize k = some n → p.length ≠ n → s.takesRequest k l tag p = true →
    ∃ t, exec (requestOf k l tag p) s = .next t ∧ BlocksSame s t ∧
      ((s.link l).isOpen = true → Refused k l tag p .badField s t) ∧
      ((s.link l).isOpen = false → FrameTaken l (s.link l).fifo (s.link l).reserved s t)

/-- A frame of a KIND that names no request is answered with UNKNOWN_KIND, before the session check; on a CLOSED link
that reply is discarded. The frame has no other effect. -/
def Obligations.UnknownKindIsAnswered : Prop :=
  ∀ (l : Link) (kind tag : Byte) (p : List Byte) (s : State),
    (∀ k : Kind, kindCode k ≠ kind) → p.length ≤ 298 → s.takes l (requestFrame kind tag p) = true →
    ∃ t, exec (.unknownKind l.arrival kind tag p) s = .next t ∧ BlocksSame s t ∧
      ((s.link l).isOpen = true →
        Answered l { kind := kind + 0x80, tag := tag, status := .unknownKind, payload := [] } s t) ∧
      ((s.link l).isOpen = false → FrameTaken l (s.link l).fifo (s.link l).reserved s t)

/-- A frame is taken with a reject: on link A at the rise of CS_A_N, wherever its transaction stands; on link B with a bad
CRC at its last byte, with a bad LEN at its second LEN byte, truncated when 2 ms pass without a byte. The command is the
rest of the frame (log 2). -/
def Obligations.FrameRejectPlacesNotice : Prop :=
  ∀ (l : Link) (r : RejectReason) (s : State), s.pins.rstAsserted = false →
    (l = .a → (s.spi.transaction.beforeSelector = true ∧ s.ready .a = true) ∨
      (s.receivingA = true ∧
        let got := s.linkA.buffer.length
        let len := field s.linkA.buffer 1 2
        match r with
        | .length => got ≤ 2 ∨ len < 2 ∨ 300 < len
        | .truncated => got ≤ 2 ∨ (2 ≤ len ∧ len ≤ 300 ∧ got < len + 5)
        | .crc => got ≤ 2 ∨ (2 ≤ len ∧ len ≤ 300 ∧ (got < len + 5 ∨ frameCrcGood s.linkA.buffer = false)))) →
    (l = .b → (s.linkB.receiver = .idle ∧ s.ready .b = true) ∨
      (s.linkB.receiver = .receiving ∧ (r = .length → s.linkB.buffer.length ≤ 2))) →
    (l = .b → r = .truncated → s.canPass 2000 = true ∧ s.linkB.receiver = .idle ∨
      s.canPass (2000 - s.linkB.interByte) = true ∧ s.linkB.receiver = .receiving) →
    ∃ t, exec (.frameReject l.rejected r) s = .next t ∧
      (t.link l).framesTaken = (s.link l).framesTaken + 1 ∧
      (t.link l).framesRejected = (s.link l).framesRejected + 1 ∧
      (t.link l).fifo = (s.link l).fifo ++ (if (s.link l).isOpen then
        [{ kind := 0xF2, tag := 0, status := .ok,
           payload := rejectCode r :: leBytes 4 ((s.link l).framesRejected + 1).toNat }] else []) ∧
      (t.link l).reserved.Perm (s.link l).reserved ∧ (t.link l).isOpen = (s.link l).isOpen ∧
      (t.link l).session = (s.link l).session ∧ (t.link l).holder = (s.link l).holder ∧
      (t.link l).receiver = (if l = .b ∧ r = .length then .discarding else .idle) ∧
      t.link (otherLink l) = s.link (otherLink l) ∧ ReadSideSame s t ∧ JobSideSameButTime s t ∧
      t.counters = s.counters ∧ t.protection = s.protection ∧
      t.spi.transaction = (if l = .a then .none else s.spi.transaction)

/-- A frame begun while its link is not ready is an overrun: OVERRUNS rises, on link A at the rise of CS_A_N and not
before, whatever readiness does meanwhile; and nothing is reserved, placed or taken. On link B the receiver discards what
follows. The commands are the rest of the frame, or a part of it (log 2); that the bytes after the status byte are 0x00 is
the model's reading (log 18). -/
def Obligations.UnreadyLinkOverruns : Prop :=
  ∀ s : State, s.pins.rstAsserted = false →
    (s.ready .a = false → s.spi.transaction.beforeSelector = true →
      (∃ t, exec .linkAOverrun s = .next t ∧ t.linkA = { s.linkA with overruns := s.linkA.overruns + 1 } ∧
        t.linkB = s.linkB ∧ t.spi.sdo = [s.statusOut] ∧ t.spi.transaction = .none ∧ BlocksSame s t ∧
        ∀ (k : Kind) (tag : Byte) (p : List Byte), exec (requestOf k .a tag p) s = .next t) ∧
      ∀ (k : Kind) (tag : Byte) (p : List Byte) (n : Nat), 1 ≤ n →
        exec (requestBy k (.aUpTo n) tag p) s =
          .next { s with spi := { transaction := .writing, sdo := [s.statusOut] } }) ∧
    (s.spi.transaction = .writing → s.linkA.receiver ≠ .receiving →
      ∃ t, exec .linkAOverrun s = .next t ∧ t = { s with
          linkA := { s.linkA with overruns := s.linkA.overruns + 1 },
          spi := { s.spi with transaction := .none } } ∧
        ∀ (k : Kind) (tag : Byte) (p : List Byte), exec (requestOf k .a tag p) s = .next t) ∧
    (s.ready .b = false → s.linkB.receiver = .idle →
      ∃ t, exec .linkBOverrun s = .next t ∧
        t.linkB = { s.linkB with overruns := s.linkB.overruns + 1, receiver := .discarding, interByte := 0 } ∧
        t.linkA = s.linkA ∧ BlocksSame s t ∧ exec (.linkBByteReceived 0x5E) s = .next t ∧
        ∀ (k : Kind) (tag : Byte) (p : List Byte), exec (requestOf k .b tag p) s = .next t)

/-- A link A transaction that selects nothing changes nothing; the link status byte goes out in it, with its bits as they
stand at the fall of CS_A_N: bit 0 ready, bit 1 message waiting, bit 2 session open, the others 0. SDO_A is driven from
the fall to the rise. What spi.sdo records is the model's (log 18), and so are the parts (log 4). -/
def Obligations.UnselectedTransactionShowsTheStatusByte : Prop :=
  ∀ (first : Byte) (s : State), first ≠ 0x5E → first ≠ 0xC3 → s.pins.rstAsserted = false →
    (s.spi.transaction = .none → s.sdoDriven = false ∧ ∃ b : Byte,
      b.getLsbD 0 = s.ready .a ∧ b.getLsbD 1 = (!s.linkA.fifo.isEmpty || s.linkA.holder.isSome) ∧
      b.getLsbD 2 = s.linkA.isOpen ∧ (∀ n, 3 ≤ n → b.getLsbD n = false) ∧
      (∃ u, exec (.linkAIgnoredTransaction .fall) s = .next u ∧
        u = { s with spi := { transaction := .selected b, sdo := [] } } ∧ u.sdoDriven = true ∧
        exec (.fetch .fall) s = .next u ∧
        ∀ (k : Kind) (tag : Byte) (p : List Byte), exec (requestBy k (.aUpTo 0) tag p) s = .next u) ∧
      ∃ t, exec (.linkAIgnoredTransaction (.whole first)) s = .next t ∧ t.spi.sdo = [b] ∧
        t.spi.transaction = .none ∧ t.linkA = s.linkA ∧ t.linkB = s.linkB ∧ t.uart = s.uart ∧ t.pins = s.pins ∧
        t.pending = s.pending ∧ BlocksSame s t) ∧
    (∀ b : Byte, s.spi.transaction = .selected b →
      exec (.linkAIgnoredTransaction (.select first)) s =
        .next { s with spi := { transaction := .ignored, sdo := [b] } } ∧
      exec (.linkAIgnoredTransaction (.whole first)) s =
        .next { s with spi := { transaction := .none, sdo := [b] } } ∧
      exec (.linkAIgnoredTransaction .rise) s = .next { s with spi := { s.spi with transaction := .none } }) ∧
    (s.spi.transaction = .ignored →
      exec (.linkAIgnoredTransaction (.select first)) s = .next s ∧
      exec (.linkAIgnoredTransaction .rise) s = .next { s with spi := { s.spi with transaction := .none } })

/-! ### Sessions -/

/-- OPEN on a CLOSED link: the session number rises, the session is OPEN, and the reply carries the OPEN RECORD with the
new number; on an OPEN link it is refused with ALREADY_OPEN. -/
def Obligations.OpenOpensASession : Prop :=
  ∀ (l : Link) (tag : Byte) (s : State), s.takesRequest .openSession l tag [] = true →
    ((s.link l).isOpen = false →
      ∃ t, exec (.openSession l.arrival tag []) s = .next t ∧
        (t.link l).session = (s.link l).session + 1 ∧ (t.link l).isOpen = true ∧
        (t.link l).fifo = (s.link l).fifo ++ [replyMessage .openSession tag .ok
          [0x40, 0x22, 0x01, (s.link l).session + 1, BitVec.ofNat 8 s.fsq.capCode.val, 64, 12, 8, 8, 4,
            flashStateCode s.fsq.state, causeCode s.fsq.cause]] ∧
        (t.link l).reserved.Perm (s.link l).reserved ∧ (t.link l).holder = (s.link l).holder ∧
        (t.link l).framesTaken = (s.link l).framesTaken + 1 ∧ ElsewhereSame l s t ∧ BlocksSame s t) ∧
    ((s.link l).isOpen = true →
      ∃ t, exec (.openSession l.arrival tag []) s = .next t ∧ Refused .openSession l tag [] .alreadyOpen s t)

/-- CLOSE on an OPEN link: the reply stands alone in the FIFO behind a link B message in transmission; every
reservation and the notice go; the session's records go with their waiters, and the claims that its PINs still hold go with
them; its jobs are SUPPRESSED; its pending profile and its RESET_FLASH requests stay, but place no reply (log 15); the session
is CLOSED and keeps its number. -/
def Obligations.CloseEndsTheSession : Prop :=
  ∀ (l : Link) (tag : Byte) (s : State), TagsOk s → s.takesRequest .closeSession l tag [] = true →
    (s.link l).isOpen = true →
    ∃ t, exec (.closeSession l.arrival tag []) s = .next t ∧
      (t.link l).fifo = s.keptAtClose l ++ [replyMessage .closeSession tag .ok []] ∧
      (t.link l).reserved = [] ∧ (t.link l).holder = none ∧ (t.link l).isOpen = false ∧
      (t.link l).session = (s.link l).session ∧ (t.link l).framesTaken = (s.link l).framesTaken + 1 ∧
      ElsewhereSame l s t ∧
      t.records = s.records.filter (fun r => !(r.link = l && r.session = (s.link l).session)) ∧
      (∀ i : Fin 128, (t.set i).ways = (s.set i).ways ∧ (t.set i).recency = (s.set i).recency) ∧
      t.fills.map Fill.line = s.fills.map Fill.line ∧
      (∀ f ∈ t.fills, ∀ w ∈ f.waiters, ∀ r ∈ s.records, r.id = w.id →
        ¬(r.link = l ∧ r.session = (s.link l).session)) ∧
      t.jq.jobs = s.jq.jobs.map (fun j =>
        if j.origin = l ∧ j.session = (s.link l).session then { j with deliver := false } else j) ∧
      t.jq.history = s.jq.history ∧ t.staging = s.staging ∧ t.protection = s.protection ∧
      t.counters = s.counters ∧
      (∀ i : Fin 128, (t.set i).claims = (s.set i).claims -
        ((s.records.filter (fun r => r.kind = .pin && r.link = l && r.session = (s.link l).session)).flatMap
          (fun r => ((List.range r.needs.length).filter (fun n => r.needs[n]? = some .waitFill ||
            r.needs[n]? = some .waitSlot || r.needs[n]? = some .waitWay)).map
              (fun n => setIndex (lineAddress r.base + 64 * n)))).count i) ∧
      t.fsq = { s.fsq with
        pendingProfile := s.fsq.pendingProfile.map (fun p =>
          if p.link = l ∧ p.session = (s.link l).session then { p with muted := true } else p),
        resetRequests := s.fsq.resetRequests.map (fun q =>
          if q.link = l ∧ q.session = (s.link l).session then { q with muted := true } else q) }

/-- NOP echoes up to 16 bytes; a longer payload is refused with BAD_FIELD. -/
def Obligations.NopEchoesItsPayload : Prop :=
  ∀ (l : Link) (tag : Byte) (p : List Byte) (s : State), s.takesRequest .nop l tag p = true →
    (s.link l).isOpen = true →
    ∃ t, exec (.nop l.arrival tag p) s = .next t ∧
      (p.length ≤ 16 → AnsweredOnly .nop l tag p s t) ∧ (16 < p.length → Refused .nop l tag p .badField s t)

/-- GET_STATUS reports the part as it stands, with its own frame's slot not counted as FREE. -/
def Obligations.GetStatusReportsThePart : Prop :=
  ∀ (l : Link) (tag : Byte) (s : State), s.takesRequest .getStatus l tag [] = true →
    (s.link l).isOpen = true →
    ∃ t, exec (.getStatus l.arrival tag []) s = .next t ∧
      AnsweredOnly .getStatus l tag
        ([flashStateCode s.fsq.state, causeCode s.fsq.cause] ++
         leBytes 2 (match s.running with | some j => j.id.toNat | none => 0) ++
         [match s.running with | some j => phaseCode j.phase | none => 0] ++
         leBytes 1 s.jq.jobs.length ++ leBytes 1 s.freeBuffers ++ leBytes 1 s.fills.length ++
         leBytes 1 (s.recordsOf .a).length ++ leBytes 1 (s.recordsOf .b).length ++
         leBytes 1 (s.freeAfter l .a) ++ leBytes 1 (s.freeAfter l .b) ++ leBytes 2 s.pinnedTotal ++
         [if s.fsq.pendingProfile.isSome then 1 else 0] ++ leBytes 2 s.jq.nextId.toNat) s t

/-- GET_STATS returns the 14 counters, its own frame counted; with the clear flag 1 all 14 are then 0; with a flag other
than 0 or 1 it is refused and nothing is copied or cleared. -/
def Obligations.GetStatsReportsAndClears : Prop :=
  ∀ (l : Link) (tag flag : Byte) (s : State), s.takesRequest .getStats l tag [flag] = true →
    (s.link l).isOpen = true →
    ∃ t, exec (.getStats l.arrival tag [flag]) s = .next t ∧
      (flag ≠ 0 → flag ≠ 1 → Refused .getStats l tag [flag] .badField s t) ∧
      (flag = 0 ∨ flag = 1 →
        (t.link l).fifo = (s.link l).fifo ++ [replyMessage .getStats tag .ok
          (leBytes 4 s.counters.lookupHit.toNat ++ leBytes 4 s.counters.lookupMiss.toNat ++
           leBytes 4 s.counters.fillAttach.toNat ++ leBytes 4 s.counters.bypassFill.toNat ++
           leBytes 4 s.counters.doomedFill.toNat ++ leBytes 4 s.counters.suspension.toNat ++
           leBytes 4 s.counters.jobOk.toNat ++ leBytes 4 s.counters.jobFailed.toNat ++
           leBytes 4 (s.linkA.framesTaken + (if l = .a then 1 else 0)).toNat ++
           leBytes 4 s.linkA.framesRejected.toNat ++ leBytes 4 s.linkA.overruns.toNat ++
           leBytes 4 (s.linkB.framesTaken + (if l = .b then 1 else 0)).toNat ++
           leBytes 4 s.linkB.framesRejected.toNat ++ leBytes 4 s.linkB.overruns.toNat)] ∧
        (t.link l).reserved.Perm (s.link l).reserved ∧ ReadSideSame s t ∧ JobSideSame s t ∧ t.fsq = s.fsq) ∧
      (flag = 0 → AnsweredOnly .getStats l tag (counterRecord (s.afterTake l)) s t) ∧
      (flag = 1 → t.counters = .zero ∧
        ∀ l', (t.link l').framesTaken = 0 ∧ (t.link l').framesRejected = 0 ∧ (t.link l').overruns = 0 ∧
          (t.link l').isOpen = (s.link l').isOpen ∧ (t.link l').holder = (s.link l').holder)

/-! ### READ and PIN -/

/-- The checks of a READ, in their order; a refused READ changes nothing behind its link; one that passes them is accepted:
its record stands with a need for each line, or it is answered at once. -/
def Obligations.ReadIsChecked : Prop :=
  ∀ (l : Link) (tag : Byte) (p : List Byte) (s : State), s.takesRequest .read l tag p = true →
    ∃ t, exec (.read l.arrival tag p) s = .next t ∧
      ((s.link l).isOpen = false → FrameTaken l (s.link l).fifo (s.link l).reserved s t ∧ BlocksSame s t) ∧
      ((s.link l).isOpen = true →
        if p.length ≠ 6 then Refused .read l tag p .badField s t
        else if field p 4 2 = 0 ∨ 256 < field p 4 2 then Refused .read l tag p .badLength s t
        else if s.capacity < field p 0 4 + field p 4 2 then Refused .read l tag p .outOfRange s t
        else if (∃ r ∈ s.records, r.link = l ∧ r.tag = tag) then Refused .read l tag p .tagInUse s t
        else if 12 ≤ (s.recordsOf l).length then Refused .read l tag p .busy s t
        else Accepted .read .read l tag { base := field p 0 4, length := field p 4 2 } s t)

/-- The checks of a PIN, in their order; a refused PIN changes nothing behind its link; one that passes them is accepted:
its record stands with a need for each line, or it is answered at once. -/
def Obligations.PinIsChecked : Prop :=
  ∀ (l : Link) (tag : Byte) (p : List Byte) (s : State), s.takesRequest .pin l tag p = true →
    (s.link l).isOpen = true → p.length = 6 →
    ∃ t, exec (.pin l.arrival tag p) s = .next t ∧
      let r : Range := { base := field p 0 4, length := field p 4 2 }
      if r.length = 0 ∨ 8192 < r.length then Refused .pin l tag p .badLength s t
      else if s.capacity < r.base + r.length then Refused .pin l tag p .outOfRange s t
      else if (∃ q ∈ s.records, q.link = l ∧ q.tag = tag) then Refused .pin l tag p .tagInUse s t
      else if (∃ j ∈ s.jq.jobs, ∃ h, j.range = some h ∧ shareLine r h = true) then
        Refused .pin l tag p .rangeHeld s t
      else if (∃ q ∈ s.records, q.kind = .pin ∧ shareLine r q.range = true) then
        Refused .pin l tag p .pinInProgress s t
      else if (∃ i : Fin 128, 3 < (s.set i).pinnedWays + (s.set i).claims +
          ((spannedLines r.base r.length).filter (fun a => setIndex a = i && !s.linePinned a)).length) then
        Refused .pin l tag p .pinLimit s t
      else if 12 ≤ (s.recordsOf l).length then Refused .pin l tag p .busy s t
      else Accepted .pin .pin l tag r s t

/-- A READ whose checks pass over a range that overlaps a hold parks whole: it joins the acceptance order with no need
looked up, keeps its reply slot, and nothing else changes. -/
def Obligations.ReadOverAHoldParks : Prop :=
  ∀ (l : Link) (tag : Byte) (p : List Byte) (s : State), s.takesRequest .read l tag p = true →
    (s.link l).isOpen = true → firstFailure (readChecks ⟨l, (s.link l).session, tag, p⟩ s) = none →
    p.length = 6 → s.overlapsHold { base := field p 0 4, length := field p 4 2 } = true →
    ∃ t, exec (.read l.arrival tag p) s = .next t ∧
      t.records = s.records ++ [{
        link := l, session := (s.link l).session, tag := tag, kind := .read, base := field p 0 4,
        length := field p 4 2, needs := List.replicate (lineCount (field p 0 4) (field p 4 2)) .waitRelease,
        buffer := List.replicate (field p 4 2) none, state := .parked, pinnedCount := 0, status := .ok }] ∧
      FrameTaken l (s.link l).fifo ((s.link l).session :: (s.link l).reserved) s t ∧
      t.cache = s.cache ∧ t.fills = s.fills ∧ JobSideSame s t ∧ t.fsq = s.fsq ∧ t.counters = s.counters

/-- A READ of bytes of one VALID line is answered at once, in every flash state, with the way's bytes in address order;
the way moves to the front of its set and LOOKUP_HIT rises. -/
def Obligations.ReadHitIsAnsweredAtOnce : Prop :=
  ∀ (l : Link) (tag : Byte) (p : List Byte) (w : Fin 4) (s : State), WaitersOk s →
    plainRead l tag p s = true → (s.set (setIndex (field p 0 4))).hit (cacheTag (field p 0 4)) = some w →
    ∃ t, exec (.read l.arrival tag p) s = .next t ∧
      Answered l (replyMessage .read tag .ok
        (((((s.set (setIndex (field p 0 4))).ways[w]).bytes).drop (field p 0 4 % 64)).take (field p 4 2))) s t ∧
      t.set (setIndex (field p 0 4)) = { s.set (setIndex (field p 0 4)) with
        recency := w :: (s.set (setIndex (field p 0 4))).recency.erase w } ∧
      (∀ i, i ≠ setIndex (field p 0 4) → t.set i = s.set i) ∧ t.records = s.records ∧ t.fills = s.fills ∧
      JobSideSame s t ∧ t.fsq = s.fsq ∧
      t.counters = { s.counters with lookupHit := s.counters.lookupHit + 1 }

/-- A READ that misses while an entry is free creates the entry of its line: bound to the victim of R6, which becomes
FILLING and keeps its place; or, with no victim, a bypass fill. With the port in use the entry waits. With FSQ READY, its
port free and no other entry WAITING it is served at once, and the burst counter rises if a QUEUED job is head; at 8 the
head job is started in its place. -/
def Obligations.ReadMissCreatesAnEntry : Prop :=
  ∀ (l : Link) (tag : Byte) (p : List Byte) (s : State), plainRead l tag p s = true →
    (s.set (setIndex (field p 0 4))).hit (cacheTag (field p 0 4)) = none → s.fsq.state ≠ .faulted →
    s.fsq.port.isSome = true ∨
      (s.fsq.port = none ∧ s.fsq.state = .ready ∧ s.fsq.pendingProfile = none ∧ s.running = none ∧
        (∀ f ∈ s.fills, f.phase ≠ .waiting)) →
    (∀ f ∈ s.fills, f.line ≠ lineAddress (field p 0 4)) → s.fills.length < 8 →
    (∀ r ∈ s.records, NeedState.waitSlot ∉ r.needs) →
    let entry := newFill l tag (field p 0 4) (s.set (setIndex (field p 0 4))).victim
    ∃ t, exec (.read l.arrival tag p) s = .next t ∧
      t.records = s.records ++ [waitingRead l tag p .waitFill s] ∧
      FrameTaken l (s.link l).fifo ((s.link l).session :: (s.link l).reserved) s t ∧
      (∀ v, (s.set (setIndex (field p 0 4))).victim = some v →
        t.set (setIndex (field p 0 4)) = (s.set (setIndex (field p 0 4))).putLine v
          (.filling (cacheTag (field p 0 4)))) ∧
      ((s.set (setIndex (field p 0 4))).victim = none → t.cache = s.cache) ∧
      (∀ i, i ≠ setIndex (field p 0 4) → t.set i = s.set i) ∧
      t.counters = { s.counters with
        lookupMiss := s.counters.lookupMiss + 1,
        bypassFill := s.counters.bypassFill +
          (if (s.set (setIndex (field p 0 4))).victim = none then 1 else 0) } ∧
      (s.fsq.port.isSome = true → t.fills = s.fills ++ [entry] ∧ JobSideSame s t ∧ t.fsq = s.fsq) ∧
      (s.fsq.port = none → s.head = none → t.fills = s.fills ++ [{ entry with phase := .transfer }] ∧
        JobSideSame s t ∧ t.fsq = { s.fsq.reads (lineAddress (field p 0 4)) with state := .reading }) ∧
      (s.fsq.port = none → s.head ≠ none → s.fsq.burst ≠ 8 →
        t.fills = s.fills ++ [{ entry with phase := .transfer }] ∧ JobSideSame s t ∧
        t.fsq = { s.fsq.reads (lineAddress (field p 0 4)) with state := .reading, burst := s.fsq.burst + 1 }) ∧
      (∀ j, s.head = some j → s.fsq.port = none → s.fsq.burst = 8 →
        t.fills = s.fills ++ [entry] ∧ t.jq.jobs.tail = s.jq.jobs.tail ∧ JobStarted j s.fsq t)

/-- A READ that misses attaches to the entry of its line as its last waiter; with no such entry and all 8 in use it
waits for a slot; in FAULTED it is answered FLASH_FAULT with no data. -/
def Obligations.ReadMissAttachesWaitsOrFails : Prop :=
  ∀ (l : Link) (tag : Byte) (p : List Byte) (s : State), plainRead l tag p s = true →
    (s.set (setIndex (field p 0 4))).hit (cacheTag (field p 0 4)) = none → WaitersOk s →
    (s.fsq.state = .faulted ∨ (∃ f ∈ s.fills, f.line = lineAddress (field p 0 4)) ∨ 8 ≤ s.fills.length) →
    ∃ t, exec (.read l.arrival tag p) s = .next t ∧ t.cache = s.cache ∧ JobSideSame s t ∧ t.fsq = s.fsq ∧
      (s.fsq.state = .faulted →
        Answered l (replyMessage .read tag .flashFault []) s t ∧ t.records = s.records ∧ t.fills = s.fills ∧
        t.counters = { s.counters with lookupMiss := s.counters.lookupMiss + 1 }) ∧
      (s.fsq.state ≠ .faulted → (∃ f ∈ s.fills, f.line = lineAddress (field p 0 4)) →
        t.records = s.records ++ [waitingRead l tag p .waitFill s] ∧
        t.fills = s.fills.map (fun f => if f.line = lineAddress (field p 0 4) then
          { f with waiters := f.waiters ++ [{ id := { link := l, tag := tag }, index := 0 }] } else f) ∧
        FrameTaken l (s.link l).fifo ((s.link l).session :: (s.link l).reserved) s t ∧
        t.counters = { s.counters with
          lookupMiss := s.counters.lookupMiss + 1, fillAttach := s.counters.fillAttach + 1 }) ∧
      (s.fsq.state ≠ .faulted → (∀ f ∈ s.fills, f.line ≠ lineAddress (field p 0 4)) → 8 ≤ s.fills.length →
        t.records = s.records ++ [waitingRead l tag p .waitSlot s] ∧ t.fills = s.fills ∧
        FrameTaken l (s.link l).fifo ((s.link l).session :: (s.link l).reserved) s t ∧
        t.counters = { s.counters with lookupMiss := s.counters.lookupMiss + 1 })

/-- A PIN of one line whose checks pass. A hit pins the way, moves it to the front and is answered at once with count
1, leaving the set's claims as they were; a miss that creates an entry leaves a claim for its line. -/
def Obligations.PinOfOneLine : Prop :=
  ∀ (l : Link) (tag : Byte) (p : List Byte) (s : State), WaitersOk s → s.takesRequest .pin l tag p = true →
    (s.link l).isOpen = true → p.length = 6 →
    firstFailure (pinChecks ⟨l, (s.link l).session, tag, p⟩ s) = none →
    field p 0 4 % 64 + field p 4 2 ≤ 64 →
    (∀ w, (s.set (setIndex (field p 0 4))).hit (cacheTag (field p 0 4)) = some w →
      ∃ t, exec (.pin l.arrival tag p) s = .next t ∧
        Answered l (replyMessage .pin tag .ok [1, 0]) s t ∧
        t.set (setIndex (field p 0 4)) =
          { ((s.set (setIndex (field p 0 4))).putLine w
              (((s.set (setIndex (field p 0 4))).ways[w]).withPinned true)) with
            recency := w :: (s.set (setIndex (field p 0 4))).recency.erase w } ∧
        (∀ i, i ≠ setIndex (field p 0 4) → t.set i = s.set i) ∧ t.records = s.records ∧ t.fills = s.fills ∧
        JobSideSame s t ∧ t.fsq = s.fsq ∧
        t.counters = { s.counters with lookupHit := s.counters.lookupHit + 1 }) ∧
    ((s.set (setIndex (field p 0 4))).hit (cacheTag (field p 0 4)) = none → s.fsq.state ≠ .faulted →
      s.fsq.port.isSome = true → (∀ f ∈ s.fills, f.line ≠ lineAddress (field p 0 4)) → s.fills.length < 8 →
      (∀ r ∈ s.records, NeedState.waitSlot ∉ r.needs) →
      ∀ v, (s.set (setIndex (field p 0 4))).victim = some v →
      ∃ t, exec (.pin l.arrival tag p) s = .next t ∧
        t.records = s.records ++ [{ waitingRead l tag p .waitFill s with kind := .pin, buffer := [] }] ∧
        t.fills = s.fills ++ [newFill l tag (field p 0 4) (some v)] ∧
        t.set (setIndex (field p 0 4)) =
          { ((s.set (setIndex (field p 0 4))).putLine v (.filling (cacheTag (field p 0 4)))) with
            claims := (s.set (setIndex (field p 0 4))).claims + 1 } ∧
        FrameTaken l (s.link l).fifo ((s.link l).session :: (s.link l).reserved) s t ∧
        JobSideSame s t ∧ t.fsq = s.fsq)

/-! ### UNPIN, INVALIDATE, PROBE_LINE -/

/-- UNPIN: its checks in order, then every pinned way of the range loses its flag and nothing else, and the reply counts
them. -/
def Obligations.UnpinClearsPinnedFlags : Prop :=
  ∀ (l : Link) (tag : Byte) (p : List Byte) (s : State), s.takesRequest .unpin l tag p = true →
    (s.link l).isOpen = true → p.length = 8 →
    ∃ t, exec (.unpin l.arrival tag p) s = .next t ∧
      let r : Range := { base := field p 0 4, length := field p 4 4 }
      if r.length = 0 then Refused .unpin l tag p .badLength s t
      else if s.capacity < r.base + r.length then Refused .unpin l tag p .outOfRange s t
      else if (∃ q ∈ s.records, q.kind = .pin ∧ shareLine r q.range = true) then
        Refused .unpin l tag p .pinInProgress s t
      else
        Answered l (replyMessage .unpin tag .ok
          (leBytes 2 (s.countWays (fun i c w => c.ways[w].pinned && lineInRange (wayLine i c.ways[w].tag) r)))) s t ∧
        (∀ (i : Fin 128) (w : Fin 4), (t.set i).ways[w] =
          if lineInRange (wayLine i (s.set i).ways[w].tag) r then ((s.set i).ways[w]).withPinned false
          else (s.set i).ways[w]) ∧
        (∀ i : Fin 128, (t.set i).recency = (s.set i).recency ∧ (t.set i).claims = (s.set i).claims) ∧
        t.records = s.records ∧ t.fills = s.fills ∧ JobSideSame s t ∧ t.fsq = s.fsq ∧ t.counters = s.counters

/-- INVALIDATE: its checks in order, then every VALID unpinned line of the range is gone, pinned ones stay, every entry
of the range is doomed, and the reply counts the three. -/
def Obligations.InvalidateDiscardsAndDooms : Prop :=
  ∀ (l : Link) (tag : Byte) (p : List Byte) (s : State), RecencyOk s →
    s.takesRequest .invalidate l tag p = true → (s.link l).isOpen = true → p.length = 8 →
    ∃ t, exec (.invalidate l.arrival tag p) s = .next t ∧
      let r : Range := { base := field p 0 4, length := field p 4 4 }
      let unpinned := fun (i : Fin 128) (c : CacheSet) (w : Fin 4) =>
        c.ways[w].isValid && !c.ways[w].pinned && lineInRange (wayLine i c.ways[w].tag) r
      let fresh := (s.fills.filter (fun f => lineInRange f.line r && !f.doomed)).length
      if r.length = 0 then Refused .invalidate l tag p .badLength s t
      else if s.capacity < r.base + r.length then Refused .invalidate l tag p .outOfRange s t
      else
        Answered l (replyMessage .invalidate tag .ok
          (leBytes 2 (s.countWays unpinned) ++
           leBytes 2 (s.countWays (fun i c w => c.ways[w].pinned && lineInRange (wayLine i c.ways[w].tag) r)) ++
           leBytes 1 fresh)) s t ∧
        (∀ (i : Fin 128) (w : Fin 4), (t.set i).ways[w] =
          if unpinned i (s.set i) w then .invalid else (s.set i).ways[w]) ∧
        (∀ i : Fin 128, (t.set i).claims = (s.set i).claims ∧
          (t.set i).recency = (s.set i).recency.filter (fun w => !unpinned i (s.set i) w) ++
            (s.set i).recency.filter (unpinned i (s.set i))) ∧
        t.fills = s.fills.map (fun f => if lineInRange f.line r then { f with doomed := true } else f) ∧
        t.counters = { s.counters with doomedFill := s.counters.doomedFill + BitVec.ofNat 32 fresh } ∧
        t.records = s.records ∧ JobSideSame s t ∧ t.fsq = s.fsq

/-- PROBE_LINE reports one way and changes nothing; a set above 127 or a way above 3 is refused with BAD_FIELD. -/
def Obligations.ProbeLineReportsTheWay : Prop :=
  ∀ (l : Link) (tag i w : Byte) (s : State), s.takesRequest .probeLine l tag [i, w] = true →
    (s.link l).isOpen = true →
    ∃ t, exec (.probeLine l.arrival tag [i, w]) s = .next t ∧
      (127 < i.toNat ∨ 3 < w.toNat → Refused .probeLine l tag [i, w] .badField s t) ∧
      (∀ (si : Fin 128) (wi : Fin 4), si.val = i.toNat → wi.val = w.toNat →
        let x := (s.set si).ways[wi]
        let bound := s.fills.find? (fun f => f.way = some wi && setIndex f.line = si)
        AnsweredOnly .probeLine l tag
          ((match x with
            | .invalid => [(0 : Byte)] ++ leBytes 2 0 ++ leBytes 4 0 ++ [0]
            | .filling g => [(1 : Byte)] ++ leBytes 2 g ++ leBytes 4 (g * 8192 + si.val * 64) ++ [0]
            | .valid g pinned _ =>
              [(2 : Byte)] ++ leBytes 2 g ++ leBytes 4 (g * 8192 + si.val * 64) ++ [if pinned then 1 else 0]) ++
           leBytes 1 ((s.set si).recency.idxOf wi) ++
           [(if bound.isSome then 1 else 0 : Byte),
            match bound with
            | some f => if f.doomed then 1 else 0
            | none => 0]) s t)

/-! ### Jobs -/

/-- A PROGRAM, ERASE or RAW that passes its checks while the port or the queue is in use: the job joins the end of the
queue QUEUED with the next id and its buffer, a second slot is reserved for JOB_DONE, its held lines leave the cache,
the entries on them are doomed, and the reply carries the id. -/
def Obligations.AcceptedJobIsQueued : Prop :=
  ∀ (k : Kind) (l : Link) (tag : Byte) (p : List Byte) (d : JobSpec) (s : State), RecencyOk s →
    jobPasses k l tag p d s = true → s.jq.jobs ≠ [] ∨ s.fsq.port.isSome = true →
    ∃ t, exec (requestOf k l tag p) s = .next t ∧
      t.jq.jobs = s.jq.jobs ++ [acceptedJob l d s] ∧ AcceptanceDone d s t ∧
      FrameTaken l ((s.link l).fifo ++ [replyMessage k tag .ok (leBytes 2 s.jq.nextId.toNat)])
        ((s.link l).session :: (s.link l).reserved) s t ∧
      t.fsq = { s.fsq with burst := if s.jq.jobs = [] then 0 else s.fsq.burst }

/-- The same with FSQ READY and idle and the queue empty: the job is started in the same event, RUNNING in ISSUE, with
the write-enable on the port, or its descriptor transaction where a RAW job has no write-enable first. -/
def Obligations.AcceptedJobStartsOnAnIdlePort : Prop :=
  ∀ (k : Kind) (l : Link) (tag : Byte) (p : List Byte) (d : JobSpec) (s : State), RecencyOk s →
    jobPasses k l tag p d s = true → s.jq.jobs = [] → s.fsq.state = .ready → s.fsq.port = none →
    s.fsq.pendingProfile = none → (∀ f ∈ s.fills, f.phase ≠ .waiting) →
    ∃ t, exec (requestOf k l tag p) s = .next t ∧
      t.jq.jobs = [{ acceptedJob l d s with phase := some .issue }] ∧ AcceptanceDone d s t ∧
      FrameTaken l ((s.link l).fifo ++ [replyMessage k tag .ok (leBytes 2 s.jq.nextId.toNat)])
        ((s.link l).session :: (s.link l).reserved) s t ∧
      ∃ x, t.fsq = { s.fsq with state := .job, burst := 0, port := some x, wait := .none, waitTime := 0 } ∧
        match d.raw with
        | some r =>
          if r.writeEnableFirst then x = oneByte .writeEnable s.fsq.active.writeEnable
          else x.command = r.command ∧ x.dataOut = r.dataOut ∧ x.dummy = r.dummy ∧
            x.dataIn = r.dataInCount ∧ x.lanes = 1 ∧
            x.address = (match r.address with
              | some a => beBytes (addressBytesOf s.fsq.capCode) a
              | none => [])
        | none => x = oneByte .writeEnable s.fsq.active.writeEnable

/-- The checks of a PROGRAM, in their order; a refused one changes nothing behind its link. Flags before length is
the model's reading of R62 (log 24). -/
def Obligations.ProgramIsChecked : Prop :=
  ∀ (l : Link) (tag : Byte) (p : List Byte) (s : State), s.takesRequest .program l tag p = true →
    (s.link l).isOpen = true →
    ∃ t, exec (.program l.arrival tag p) s = .next t ∧
      let a := field p 0 4
      let n := p.length - 5
      let r : Range := { base := a, length := n }
      if p.length < 5 ∨ byteAt p 4 &&& 0xFE ≠ 0 then Refused .program l tag p .badField s t
      else if n = 0 ∨ 256 < n then Refused .program l tag p .badLength s t
      else if s.capacity < a + n then Refused .program l tag p .outOfRange s t
      else if a / 256 ≠ (a + n - 1) / 256 then Refused .program l tag p .pageCross s t
      else if s.fsq.state = .faulted then Refused .program l tag p .flashFault s t
      else if (∃ (i : Fin 8) (e : ProtectEntry), s.protection[i] = some e ∧ e.mode = .noModify ∧
          e.base < a + n ∧ a < e.base + e.length) then Refused .program l tag p .protectedRange s t
      else if (∃ (i : Fin 128) (w : Fin 4), (s.set i).ways[w].pinned = true ∧
            lineInRange (wayLine i (s.set i).ways[w].tag) r = true) ∨
          (∃ q ∈ s.records, q.kind = .pin ∧ shareLine r q.range = true) then
        Refused .program l tag p .rangePinned s t
      else if 8 ≤ s.jq.jobs.length then Refused .program l tag p .queueFull s t
      else if (s.link l).freeSlots ≤ 1 then Refused .program l tag p .replySpace s t
      else if (∀ b : Fin 4, s.staging[b] ≠ none) then Refused .program l tag p .noBuffer s t
      else ∃ j ∈ t.jq.jobs, j.id = s.jq.nextId ∧ j.kind = .program ∧ j.range = some r

/-- The checks of an ERASE and of a RAW, in their order; a refused one changes nothing behind its link. A RAW READ_ONLY
has no range, so its range is asked neither for protection nor for pins. An accepted one stands in the queue. The place of
the check that RAW's write-enable-first flag is 0 or 1 is the model's (log 31). -/
def Obligations.EraseAndRawAreChecked : Prop :=
  ∀ (l : Link) (tag : Byte) (p : List Byte) (s : State), (s.link l).isOpen = true →
    (s.takesRequest .erase l tag p = true → p.length = 5 →
      ∃ t, exec (.erase l.arrival tag p) s = .next t ∧
        let a := field p 0 4
        let unit := if byteAt p 4 = 1 then 65536 else 4096
        let r : Range := { base := a, length := unit }
        if 1 < (byteAt p 4).toNat then Refused .erase l tag p .badField s t
        else if s.capacity ≤ a then Refused .erase l tag p .outOfRange s t
        else if a % unit ≠ 0 then Refused .erase l tag p .badAlign s t
        else if s.fsq.state = .faulted then Refused .erase l tag p .flashFault s t
        else if (∃ (i : Fin 8) (e : ProtectEntry), s.protection[i] = some e ∧ e.base < a + unit ∧
            a < e.base + e.length) then Refused .erase l tag p .protectedRange s t
        else if (∃ (i : Fin 128) (w : Fin 4), (s.set i).ways[w].pinned = true ∧
              lineInRange (wayLine i (s.set i).ways[w].tag) r = true) ∨
            (∃ q ∈ s.records, q.kind = .pin ∧ shareLine r q.range = true) then
          Refused .erase l tag p .rangePinned s t
        else if 8 ≤ s.jq.jobs.length then Refused .erase l tag p .queueFull s t
        else if (s.link l).freeSlots ≤ 1 then Refused .erase l tag p .replySpace s t
        else ∃ j ∈ t.jq.jobs, j.id = s.jq.nextId ∧ j.range = some r ∧
          j.kind = (if byteAt p 4 = 1 then .eraseBlock else .eraseSector)) ∧
    (s.takesRequest .raw l tag p = true →
      ∃ t, exec (.raw l.arrival tag p) s = .next t ∧
        let r : Range := { base := 0, length := s.capacity }
        if p.length < 11 then Refused .raw l tag p .badField s t
        else if 1 < field p 0 1 ∨ 1 < field p 1 1 ∨ 1 < field p 3 1 ∨ 15 < field p 8 1 ∨
            (field p 1 1 = 1 ∧ field p 0 1 = 0) then Refused .raw l tag p .badField s t
        else if 16 < field p 9 1 ∨ 16 < field p 10 1 then Refused .raw l tag p .badLength s t
        else if p.length ≠ 11 + field p 9 1 then Refused .raw l tag p .badField s t
        else if field p 3 1 = 1 ∧ s.capacity ≤ field p 4 4 then Refused .raw l tag p .outOfRange s t
        else if s.fsq.state = .faulted then Refused .raw l tag p .flashFault s t
        else if field p 0 1 = 1 ∧ (∃ i : Fin 8, s.protection[i] ≠ none) then
          Refused .raw l tag p .protectedRange s t
        else if field p 0 1 = 1 ∧ ((∃ (i : Fin 128) (w : Fin 4), (s.set i).ways[w].pinned = true ∧
              lineInRange (wayLine i (s.set i).ways[w].tag) r = true) ∨
            (∃ q ∈ s.records, q.kind = .pin ∧ shareLine r q.range = true)) then
          Refused .raw l tag p .rangePinned s t
        else if 8 ≤ s.jq.jobs.length then Refused .raw l tag p .queueFull s t
        else if (s.link l).freeSlots ≤ 1 then Refused .raw l tag p .replySpace s t
        else ∃ j ∈ t.jq.jobs, j.id = s.jq.nextId ∧ j.kind = .raw ∧
          j.range = (if field p 0 1 = 1 then some r else none))

/-- CANCEL_JOB: an id not in the queue is UNKNOWN_JOB and a RUNNING job is JOB_RUNNING, with nothing changed. A QUEUED
job, with no record PARKED, leaves the queue with CANCELLED and nothing is begun; its buffer is free, its history entry
carries 0 and 0, no counter rises; its JOB_DONE, if to be delivered, stands before the reply. At the end of its hold a PARKED READ of one line stays
PARKED if another hold overlaps it; else it is released, and a miss creates its entry, a hit answers it. -/
def Obligations.CancelEndsAQueuedJob : Prop :=
  ∀ (l : Link) (tag x y : Byte) (s : State),
    s.takesRequest .cancelJob l tag [x, y] = true → (s.link l).isOpen = true →
    ((∀ j ∈ s.jq.jobs, j.id ≠ y ++ x) →
      ∃ t, exec (.cancelJob l.arrival tag [x, y]) s = .next t ∧ Refused .cancelJob l tag [x, y] .unknownJob s t) ∧
    (∀ (i : Nat) (j : Job), s.jq.jobs[i]? = some j → j.id = y ++ x →
      (∀ n, n < i → ∀ q, s.jq.jobs[n]? = some q → q.id ≠ y ++ x) →
      (j.phase.isSome = true →
        ∃ t, exec (.cancelJob l.arrival tag [x, y]) s = .next t ∧ Refused .cancelJob l tag [x, y] .jobRunning s t) ∧
      (j.phase = none → j.suspendCount = 0 → j.busyTime = 0 → (∀ r ∈ s.records, r.state = .active) →
        0 < i ∨ s.fsq.port.isSome = true ∨ s.fsq.state = .recovering →
        (j.deliver = true → j.session ∈ (s.link j.origin).reserved ∧ (s.link j.origin).isOpen = true) →
        ∃ t, exec (.cancelJob l.arrival tag [x, y]) s = .next t ∧
          t.jq.jobs = s.jq.jobs.eraseIdx i ∧ t.jq.nextId = s.jq.nextId ∧
          t.jq.history = appendHistory s.jq.history
            { id := j.id, kind := j.kind, outcome := .cancelled, suspendCount := 0, busyTime := 0 } ∧
          t.staging = (s.freeStaging j).staging ∧ t.counters = s.counters ∧ ReadSideSame s t ∧
          t.protection = s.protection ∧ t.fsq = { s.fsq with burst := if i = 0 then 0 else s.fsq.burst } ∧
          (t.link l).fifo = (s.link l).fifo ++
            (if j.deliver = true ∧ j.origin = l then [jobDoneNotice j .cancelled] else []) ++
            [replyMessage .cancelJob tag .ok [x, y]] ∧
          (t.link (otherLink l)).fifo = (s.link (otherLink l)).fifo ++
            (if j.deliver = true ∧ j.origin ≠ l then [jobDoneNotice j .cancelled] else [])) ∧
      (∀ h, j.range = some h → ∀ r, s.records = [r] → j.phase = none → r.state = .parked → r.kind = .read →
        r.needs = [.waitRelease] → r.buffer = List.replicate r.length none → r.status = .ok →
        r.base % 64 + r.length ≤ 64 → s.fsq.port.isSome = true → s.fsq.state ≠ .faulted →
        let held := (s.jq.jobs.eraseIdx i).any (fun q => match q.range with
          | some o => shareLine o r.range
          | none => false)
        let c := s.set (setIndex r.base)
        ∃ t, exec (.cancelJob l.arrival tag [x, y]) s = .next t ∧ t.jq.jobs = s.jq.jobs.eraseIdx i ∧
          (held = true → ReadSideSame s t) ∧
          (held = false → c.hit (cacheTag r.base) = none →
            (∀ f ∈ s.fills, f.line ≠ lineAddress r.base) → s.fills.length < 8 →
            t.records = [{ r with state := .active, needs := [.waitFill] }] ∧
            t.fills = s.fills ++ [newFill r.link r.tag r.base c.victim] ∧
            t.counters.lookupMiss = s.counters.lookupMiss + 1) ∧
          (∀ w, c.hit (cacheTag r.base) = some w → held = false → t.records = [] ∧
            t.set (setIndex r.base) = { c with recency := w :: c.recency.erase w } ∧
            t.counters = { s.counters with lookupHit := s.counters.lookupHit + 1 } ∧
            (j.deliver = false → r.session ∈ (s.link r.link).reserved → (s.link r.link).isOpen = true →
              (t.link r.link).fifo = (s.link r.link).fifo ++ [replyMessage .read r.tag .ok
                (((c.ways[w].bytes).drop (r.base % 64)).take r.length)] ++
                (if r.link = l then [replyMessage .cancelJob tag .ok [x, y]] else [])))))

/-- QUERY_JOB searches the queue, then the history from its end, and changes nothing. -/
def Obligations.QueryReportsAJob : Prop :=
  ∀ (l : Link) (tag x y : Byte) (s : State), s.takesRequest .queryJob l tag [x, y] = true →
    (s.link l).isOpen = true →
    (∀ (i : Nat) (j : Job), s.jq.jobs[i]? = some j → j.id = y ++ x →
      (∀ n, n < i → ∀ q, s.jq.jobs[n]? = some q → q.id ≠ y ++ x) →
      ∃ t, exec (.queryJob l.arrival tag [x, y]) s = .next t ∧
        AnsweredOnly .queryJob l tag
          ([x, y, 0, jobKindCode j.kind, if j.phase.isSome then 1 else 0, phaseCode j.phase] ++ leBytes 1 i ++
           [linkCode j.origin, 0] ++ leBytes 1 j.suspendCount ++ leBytes 4 j.busyTime) s t) ∧
    ((∀ j ∈ s.jq.jobs, j.id ≠ y ++ x) →
      (∀ e, s.jq.history.reverse.find? (fun h : HistoryEntry => decide (h.id = y ++ x)) = some e →
        ∃ t, exec (.queryJob l.arrival tag [x, y]) s = .next t ∧
          AnsweredOnly .queryJob l tag
            ([x, y, 1, jobKindCode e.kind, 2, 0xFF, 0xFF, 0xFF, statusCode e.outcome] ++
             leBytes 1 e.suspendCount ++ leBytes 4 e.busyTime) s t) ∧
      ((∀ e ∈ s.jq.history, e.id ≠ y ++ x) →
        ∃ t, exec (.queryJob l.arrival tag [x, y]) s = .next t ∧
          Refused .queryJob l tag [x, y] .unknownJob s t))

/-! ### Profiles, RESET_FLASH, protection -/

/-- SET_PROFILE: its checks in order, the ranges of the fields first; an accepted one becomes pending and its slot stays reserved; with FSQ READY and
nothing to do it is applied and answered in the same event, but for a RESET_FLASH of the same instant on the other link, which
finds it pending (log 28). A profile read from 34 bytes is reported as those bytes. -/
def Obligations.SetProfileBecomesPending : Prop :=
  ∀ (l : Link) (tag : Byte) (p : List Byte) (s : State), s.takesRequest .setProfile l tag p = true →
    (s.link l).isOpen = true → p.length = 34 →
    let inRange : Prop :=
      field p 1 1 ≤ 15 ∧ (field p 2 1 = 1 ∨ field p 2 1 = 2 ∨ field p 2 1 = 4) ∧
      field p 3 1 % 2 = 0 ∧ 2 ≤ field p 3 1 ∧ field p 3 1 ≤ 64 ∧ byteAt p 9 ≠ 0 ∧ field p 14 1 ≤ 1 ∧ byteAt p 18 ≠ 0 ∧
      20 ≤ field p 19 2 ∧ field p 19 2 ≤ 2000 ∧ 1 ≤ field p 21 1 ∧ field p 21 1 ≤ 50 ∧
      1 ≤ field p 22 1 ∧ field p 22 1 ≤ 32 ∧ 1 ≤ field p 23 1 ∧ field p 23 1 ≤ 16 ∧
      1 ≤ field p 26 1 ∧ field p 26 1 ≤ 5 ∧ 1 ≤ field p 27 1 ∧ field p 27 1 ≤ 50 ∧
      50 ≤ field p 28 2 ∧ field p 28 2 ≤ 2000 ∧ 200 ≤ field p 30 2 ∧ field p 30 2 ≤ 8000 ∧
      1 ≤ field p 32 2 ∧ field p 32 2 ≤ 500
    (¬inRange →
      ∃ t, exec (.setProfile l.arrival tag p) s = .next t ∧ Refused .setProfile l tag p .badField s t) ∧
    (inRange → (parseProfile p).isSome = true) ∧
    (∀ x, parseProfile p = some x → profileBytes x = p ∧
      (s.fsq.pendingProfile.isSome = true →
        ∃ t, exec (.setProfile l.arrival tag p) s = .next t ∧ Refused .setProfile l tag p .profilePending s t) ∧
      (s.fsq.pendingProfile = none → s.fsq.state = .faulted →
        ∃ t, exec (.setProfile l.arrival tag p) s = .next t ∧ Refused .setProfile l tag p .flashFault s t) ∧
      (s.fsq.pendingProfile = none → s.fsq.state ≠ .faulted →
        s.fsq.port.isSome = true ∨ (s.fsq.state ≠ .ready ∧ s.fsq.state ≠ .suspended) →
        ∃ t, exec (.setProfile l.arrival tag p) s = .next t ∧
          t.fsq = { s.fsq with
            pendingProfile := some (pendingOf ⟨l, (s.link l).session, tag, p⟩ x) } ∧
          FrameTaken l (s.link l).fifo ((s.link l).session :: (s.link l).reserved) s t ∧
          ReadSideSame s t ∧ JobSideSame s t ∧ t.counters = s.counters) ∧
      (s.fsq.pendingProfile = none → s.fsq.state = .ready → s.fsq.port = none → s.jq.jobs = [] →
        (∀ f ∈ s.fills, f.phase ≠ .waiting) →
        ∃ t, exec (.setProfile l.arrival tag p) s = .next t ∧
          ReadSideSame s t ∧ JobSideSame s t ∧ t.counters = s.counters ∧
          (s.resetNextBeside l = false → t.fsq = { s.fsq with active := x } ∧
            Answered l (replyMessage .setProfile tag .ok []) s t) ∧
          (s.resetNextBeside l = true →
            t.fsq = { s.fsq with
              pendingProfile := some (pendingOf ⟨l, (s.link l).session, tag, p⟩ x) } ∧
            FrameTaken l (s.link l).fifo ((s.link l).session :: (s.link l).reserved) s t)))

/-- RESET_FLASH joins the reset request list and keeps its slot. In a transaction it waits for the end; in READY,
in FAULTED and in a recovery's wait it takes effect at once; between two status reads, of a busy period or of a
suspension, it aborts the job. In the instant of a job's end, the end first, it finds no RUNNING job and ends none; in the
instant of a recovery's end it finds FSQ READY; and with a SET_PROFILE of the same instant, in either order, the profile is
pending through the recovery. That the one which waits next in the queue is of the same instant is the model's (logs 28, 30).
Where one waits, the end of a transaction aborts the RUNNING job and begins recovery with
the probe flag set, its result not acted on; a resume is counted first, a fill arrives first; and in recovery the sequence
restarts. That FSQ remembers a waiting request is the model's (log 22). -/
def Obligations.ResetFlashLeadsToRecovery : Prop :=
  (∀ (l : Link) (tag : Byte) (s : State), s.takesRequest .resetFlash l tag [] = true →
    (s.link l).isOpen = true →
    let asked := s.fsq.resetRequests ++
      [{ link := l, session := (s.link l).session, tag := tag, muted := false }]
    (s.fsq.port.isSome = true →
      ∃ t, exec (.resetFlash l.arrival tag []) s = .next t ∧
        t.fsq = { s.fsq with resetRequests := asked, resetDue := true } ∧
        FrameTaken l (s.link l).fifo ((s.link l).session :: (s.link l).reserved) s t ∧
        ReadSideSame s t ∧ JobSideSame s t ∧ t.counters = s.counters) ∧
    (s.fsq.port = none → s.fsq.state = .ready ∧ s.running = none ∨ s.fsq.state = .faulted →
      ∃ t, exec (.resetFlash l.arrival tag []) s = .next t ∧ RecoveryBegun s.fsq true t.fsq ∧
        t.fsq.origin = (if s.fsq.state = .faulted then .faulted else .job) ∧ t.fsq.resetRequests = asked ∧
        FrameTaken l (s.link l).fifo ((s.link l).session :: (s.link l).reserved) s t ∧
        ReadSideSame s t ∧ JobSideSame s t ∧ t.counters = s.counters) ∧
    (s.fsq.port = none → s.fsq.state = .recovering →
      ∃ t, exec (.resetFlash l.arrival tag []) s = .next t ∧
        t.fsq = { s.fsq with attempt := 1, probe := true, resetRequests := asked, resetDue := false,
                             port := some (oneByte .recoveryReset1 s.fsq.active.firstReset), wait := .none,
                             waitTime := 0 } ∧
        FrameTaken l (s.link l).fifo ((s.link l).session :: (s.link l).reserved) s t ∧
        ReadSideSame s t ∧ JobSideSame s t ∧ t.counters = s.counters) ∧
    (s.fsq.port = none → s.fsq.state = .job ∨ s.fsq.state = .suspending ∨ s.fsq.state = .suspended →
      ∀ j, s.running = some j →
      ∃ t, exec (.resetFlash l.arrival tag []) s = .next t ∧ RecoveryBegun s.fsq true t.fsq ∧
        t.fsq.origin = .job ∧ t.fsq.resetRequests = asked ∧ JobGone j .aborted s t)) ∧
  (∀ s : State, s.fsq.resetDue = true →
    s.fsq.state = .job ∨ s.fsq.state = .reading ∨ s.fsq.state = .suspending ∨ s.fsq.state = .suspended →
    (∀ (data : List Byte) (j : Job), s.running = some j →
      ∀ u ∈ [TransactionUse.writeEnable, .program, .erase, .descriptor, .statusRead, .errorStatusRead, .clearStatus,
        .verifyRead, .suspendCommand, .suspendedStatusRead],
      s.portIs u = true → (u = .descriptor ∨ u = .verifyRead → s.portTakes u data.length = true) →
      ∃ t, exec (u.endCommand data) s = .next t ∧ RecoveryBegun s.fsq true t.fsq ∧ t.fsq.origin = .job ∧
        t.fsq.resetRequests = s.fsq.resetRequests ∧ JobGone j .aborted s t) ∧
    (∀ j : Job, s.running = some j → s.portIs .resume = true →
      ∃ t, exec .resumeEnd s = .next t ∧ RecoveryBegun s.fsq true t.fsq ∧ t.fsq.origin = .job ∧
        t.counters.suspension = s.counters.suspension + 1 ∧
        JobGone { j with suspendCount := j.suspendCount + 1 } .aborted s t) ∧
    (∀ (data : List Byte) (f : Fill), data.length = 64 → s.portIs (.fillRead f.line) = true →
      s.fill f.line = some f →
      ∃ t, exec (.fillArrival data) s = .next t ∧ RecoveryBegun s.fsq true t.fsq ∧ t.fsq.origin = .job ∧
        t.fsq.resetRequests = s.fsq.resetRequests ∧
        (s.running = none → JobSideSame s t) ∧
        (∀ j, s.running = some j → t.jq.jobs.map Job.id = s.jq.jobs.tail.map Job.id ∧
          t.jq.history = appendHistory s.jq.history (j.entry .aborted)) ∧
        (f.waiters = [] → s.records = [] → t.fills = s.fills.filter (fun g => g.line ≠ f.line)))) ∧
  (∀ (data : List Byte) (s : State), s.fsq.resetDue = true → s.fsq.recoveryTime < 20000 →
    ∀ u ∈ [TransactionUse.recoveryReset1, .recoveryReset2, .recoveryStatusRead, .recoveryIdRead], s.portIs u = true →
    exec (u.endCommand data) s = .next (s.updFsq (fun q =>
      { q.sending ⟨.recoveryReset1, q.active.firstReset, [], [], 0, 0, 1⟩ with
        attempt := 1, probe := true, resetDue := false }))) ∧
  (∀ (l : Link) (tag b : Byte) (j : Job) (c : Instr) (o : Status) (rest : List Instr) (s : State),
    s.pending = c :: .resetFlash l.arrival tag [] :: rest → s.takesRequest .resetFlash l tag [] = true →
    (s.link l).isOpen = true →
    (c = .clearStatusEnd ∧ s.jobSends .clearStatus j = true ∧
        o = (if j.kind = .program then .programFailed else .eraseFailed)) ∨
      (c = .statusReadEnd b ∧ s.jobSends .statusRead j = true ∧ b &&& s.fsq.active.busyMask = 0 ∧
        s.fsq.active.errorStatus = 0 ∧ (j.kind ≠ .program ∨ j.verify = false) ∧ o = .ok) →
    s.fsq.pendingProfile = none → s.oldestWaiting = none → (∀ r ∈ s.records, r.state = .active) →
    (∀ k ∈ s.jq.jobs.tail, k.phase = none) →
    ∃ t u, step s = .next t ∧ step t = .next u ∧ JobGone j o s u ∧ u.jq.jobs = s.jq.jobs.tail ∧
      RecoveryBegun s.fsq true u.fsq ∧ u.fsq.origin = .job ∧ u.pending = rest ∧
      u.fsq.resetRequests = s.fsq.resetRequests ++
        [{ link := l, session := (s.link l).session, tag := tag, muted := false }]) ∧
  (∀ (l : Link) (tag b : Byte) (rest : List Instr) (s : State),
    s.pending = .recoveryStatusReadEnd b :: .resetFlash l.arrival tag [] :: rest →
    s.takesRequest .resetFlash l tag [] = true → (s.link l).isOpen = true →
    s.portIs .recoveryStatusRead = true → s.fsq.resetDue = false → s.fsq.recoveryTime < 20000 →
    b &&& s.fsq.active.busyMask = 0 → s.fsq.probe = false → s.running = none →
    ∃ t u, step s = .next t ∧ step t = .next u ∧ u.fsq.state = .recovering ∧ u.fsq.origin = .job ∧
      u.fsq.attempt = 1 ∧ u.fsq.recoveryTime = 0 ∧ u.fsq.probe = true ∧ u.pending = rest ∧
      u.fsq.resetRequests = [{ link := l, session := (s.link l).session, tag := tag, muted := false }] ∧
      u.fsq.active = (match s.fsq.pendingProfile with
        | some p => p.profile
        | none => s.fsq.active) ∧ u.fsq.pendingProfile = none ∧
      ReadSideSame s u ∧ JobSideSame s u ∧ u.counters = s.counters ∧ u.fsq.burst = s.fsq.burst) ∧
  (∀ (l : Link) (tag other : Byte) (p : List Byte) (x : Profile) (rest : List Instr) (s : State),
    let asked := Instr.resetFlash l.arrival tag []
    let m := otherLink l
    let given := Instr.setProfile m.arrival other p
    s.pending = given :: asked :: rest ∨ s.pending = asked :: given :: rest →
    s.takesRequest .resetFlash l tag [] = true → (s.link l).isOpen = true →
    s.takesRequest .setProfile m other p = true → (s.link m).isOpen = true → p.length = 34 →
    parseProfile p = some x → s.fsq.pendingProfile = none → s.fsq.state = .ready → s.fsq.port = none →
    s.running = none →
    ∃ t u, step s = .next t ∧ step t = .next u ∧ RecoveryBegun s.fsq true u.fsq ∧ u.fsq.origin = .job ∧
      u.fsq.pendingProfile = some (pendingOf ⟨m, (s.link m).session, other, p⟩ x) ∧ u.pending = rest ∧
      u.fsq.resetRequests = s.fsq.resetRequests ++
        [{ link := l, session := (s.link l).session, tag := tag, muted := false }] ∧
      (∀ k, (u.link k).fifo = (s.link k).fifo ∧
        (u.link k).reserved.Perm ((s.link k).session :: (s.link k).reserved)) ∧
      ReadSideSame s u ∧ JobSideSame s u ∧ u.counters = s.counters)

/-- PROTECT: its checks in order, then the entry goes to the empty slot with the lowest index. -/
def Obligations.ProtectTakesTheLowestEmptySlot : Prop :=
  ∀ (l : Link) (tag : Byte) (p : List Byte) (s : State), s.takesRequest .protect l tag p = true →
    (s.link l).isOpen = true → p.length = 10 →
    ∃ t, exec (.protect l.arrival tag p) s = .next t ∧
      let base := field p 0 4
      let len := field p 4 4
      if (byteAt p 8 ≠ 1 ∧ byteAt p 8 ≠ 2) ∨ 1 < (byteAt p 9).toNat then Refused .protect l tag p .badField s t
      else if len = 0 then Refused .protect l tag p .badLength s t
      else if base % 4096 ≠ 0 ∨ len % 4096 ≠ 0 then Refused .protect l tag p .badAlign s t
      else if s.capacity < base + len then Refused .protect l tag p .outOfRange s t
      else if (∀ i : Fin 8, s.protection[i] ≠ none) then Refused .protect l tag p .tableFull s t
      else ∃ i : Fin 8, s.protection[i] = none ∧ (∀ n : Fin 8, n < i → s.protection[n] ≠ none) ∧
        Answered l (replyMessage .protect tag .ok [BitVec.ofNat 8 i.val]) s t ∧
        t.protection[i] = some ⟨base, len, if byteAt p 8 = 1 then .noErase else .noModify, byteAt p 9 = 1⟩ ∧
        (∀ n : Fin 8, n ≠ i → t.protection[n] = s.protection[n]) ∧
        ReadSideSame s t ∧ t.jq = s.jq ∧ t.staging = s.staging ∧ t.fsq = s.fsq ∧ t.counters = s.counters

/-- UNPROTECT: an index above 7 or of an empty slot is BAD_FIELD, a locked entry is LOCKED and stays, and any other
entry is removed; the reply carries the index. -/
def Obligations.UnprotectRemovesUnlockedEntries : Prop :=
  ∀ (l : Link) (tag x : Byte) (s : State), s.takesRequest .unprotect l tag [x] = true →
    (s.link l).isOpen = true →
    ∃ t, exec (.unprotect l.arrival tag [x]) s = .next t ∧
      (7 < x.toNat → Refused .unprotect l tag [x] .badField s t) ∧
      (∀ i : Fin 8, i.val = x.toNat → match s.protection[i] with
        | none => Refused .unprotect l tag [x] .badField s t
        | some e =>
          if e.locked then Refused .unprotect l tag [x] .locked s t
          else Answered l (replyMessage .unprotect tag .ok [x]) s t ∧ t.protection[i] = none ∧
            (∀ n : Fin 8, n ≠ i → t.protection[n] = s.protection[n]) ∧
            ReadSideSame s t ∧ t.jq = s.jq ∧ t.staging = s.staging ∧ t.fsq = s.fsq ∧ t.counters = s.counters)

/-- GET_PROFILE reports the active profile and the pending flag, LIST_PROTECT all 8 slots in index order; neither
changes anything. -/
def Obligations.GetProfileAndListProtectReport : Prop :=
  ∀ (l : Link) (tag : Byte) (s : State), (s.link l).isOpen = true →
   (s.takesRequest .getProfile l tag [] = true →
    ∃ t, exec (.getProfile l.arrival tag []) s = .next t ∧
      AnsweredOnly .getProfile l tag
        (profileBytes s.fsq.active ++ [if s.fsq.pendingProfile.isSome then 1 else 0]) s t) ∧
   (s.takesRequest .listProtect l tag [] = true →
    ∃ t, exec (.listProtect l.arrival tag []) s = .next t ∧
      AnsweredOnly .listProtect l tag
        (([0, 1, 2, 3, 4, 5, 6, 7] : List (Fin 8)).flatMap (fun i => match s.protection[i] with
          | none => List.replicate 11 0
          | some e => [1] ++ leBytes 4 e.base ++ leBytes 4 e.length ++
              [modeCode e.mode, if e.locked then 1 else 0])) s t)

/-! ### Messages out, bytes in -/

/-- A link A fetch shifts out the holder's notice, else the head of the FIFO; it leaves only when all of it has
been shifted out. With nothing waiting only the status byte and 0x00 go out. A fetch taken whole is its parts, the bytes
clocked in any portions. A notice that a newer one has replaced leaves the newer in the holder.
The parts of a fetch are the model's (log 4). -/
def Obligations.FetchShiftsOutOneMessage : Prop :=
  (∀ (n : Nat) (s : State), s.pins.rstAsserted = false → s.spi.transaction.beforeSelector = true →
    (∃ u, exec (.fetch .select) s = .next u ∧ exec (.fetch (.finish n)) u = exec (.fetch (.whole n)) s) ∧
    ∃ t, exec (.fetch (.whole n)) s = .next t ∧ t.linkB = s.linkB ∧ t.uart = s.uart ∧ BlocksSame s t ∧
      t.spi.transaction = .none ∧
      match s.linkA.holder, s.linkA.fifo with
      | some m, _ =>
        t.spi.sdo = s.statusOut :: (messageFrame m).take n ∧
        t.linkA = if (messageFrame m).length ≤ n then { s.linkA with holder := none } else s.linkA
      | none, m :: rest =>
        t.spi.sdo = s.statusOut :: (messageFrame m).take n ∧
        t.linkA = if (messageFrame m).length ≤ n then { s.linkA with fifo := rest } else s.linkA
      | none, [] => t.spi.sdo = [s.statusOut] ∧ t.linkA = s.linkA) ∧
  (∀ (chosen : Option (Message × Source)) (replaced : Bool) (out n n' : Nat) (s : State),
    s.spi.transaction = .fetching chosen replaced out →
    ∃ u t, exec (.fetch (.shift n)) s = .next u ∧ exec (.fetch (.finish n)) s = .next t ∧
      exec (.fetch (.finish n')) u = exec (.fetch (.finish (n + n'))) s ∧
      u.linkA = s.linkA ∧ u.linkB = s.linkB ∧ t.linkB = s.linkB ∧ BlocksSame s u ∧ BlocksSame s t ∧
      u.spi = { transaction := .fetching chosen replaced (out + n), sdo := t.spi.sdo } ∧
      t.spi.transaction = .none ∧
      (chosen = none → t.spi.sdo = s.spi.sdo ∧ t.linkA = s.linkA) ∧
      (∀ m source, chosen = some (m, source) →
        t.spi.sdo = s.spi.sdo ++ ((messageFrame m).drop out).take n ∧
        t.linkA = if out + n < (messageFrame m).length then s.linkA else match source with
          | .fifo => { s.linkA with fifo := s.linkA.fifo.tail }
          | .holder => if replaced then s.linkA else { s.linkA with holder := none }))

/-- With CTS_B_N asserted and no message in transmission, link B begins the holder's notice, which then leaves the holder,
else the head of the FIFO, which stays there; with CTS_B_N deasserted, a message in transmission or none waiting, it
begins none. At its end a FIFO message leaves and its slot is FREE. That the command carries the level of CTS_B_N, which is
then held in pins.cts, is the model's (log 17). -/
def Obligations.LinkBTransmitsOneMessage : Prop :=
  ∀ s : State,
    (s.uart.tx = none → ∀ m, s.linkB.holder = some m →
      exec (.linkBTransmitBegin true) s = .next { s with
        pins := { s.pins with cts := true },
        uart := { s.uart with tx := some (m, .holder) }, linkB := { s.linkB with holder := none } }) ∧
    (s.uart.tx = none → s.linkB.holder = none → ∀ m rest, s.linkB.fifo = m :: rest →
      exec (.linkBTransmitBegin true) s = .next { s with
        pins := { s.pins with cts := true }, uart := { s.uart with tx := some (m, .fifo) } }) ∧
    (∀ cts, cts = false ∨ s.uart.tx ≠ none ∨ (s.linkB.holder = none ∧ s.linkB.fifo = []) →
      exec (.linkBTransmitBegin cts) s = .next { s with pins := { s.pins with cts := cts } }) ∧
    (∀ m, s.uart.tx = some (m, .fifo) →
      exec .linkBTransmitEnd s = .next { s with
        uart := { s.uart with tx := none }, linkB := { s.linkB with fifo := s.linkB.fifo.tail } }) ∧
    (∀ m, s.uart.tx = some (m, .holder) →
      exec .linkBTransmitEnd s = .next { s with uart := { s.uart with tx := none } })

/-- What link B's receiver does with a byte that completes no frame, and when 2 ms pass without one. The model: an
expiry lets the time left to it pass (log 6). -/
def Obligations.LinkBReceiverHandlesBytes : Prop :=
  ∀ (b : Byte) (s : State), s.pins.rstAsserted = false →
    (s.linkB.receiver = .idle → b ≠ 0x5E → exec (.linkBByteReceived b) s = .next s) ∧
    (s.linkB.receiver = .idle → s.ready .b = true →
      exec (.linkBByteReceived 0x5E) s = .next { s with
        linkB := { s.linkB with receiver := .receiving, buffer := [0x5E], interByte := 0 } }) ∧
    (s.linkB.receiver = .discarding →
      exec (.linkBByteReceived b) s = .next { s with linkB := { s.linkB with interByte := 0 } }) ∧
    (s.linkB.receiver = .receiving → s.linkB.buffer.length < 2 →
      exec (.linkBByteReceived b) s = .next { s with
        linkB := { s.linkB with buffer := s.linkB.buffer ++ [b], interByte := 0 } }) ∧
    (s.linkB.receiver = .receiving → s.linkB.buffer.length = 2 →
      2 ≤ field (s.linkB.buffer ++ [b]) 1 2 → field (s.linkB.buffer ++ [b]) 1 2 ≤ 300 →
      exec (.linkBByteReceived b) s = .next { s with
        linkB := { s.linkB with buffer := s.linkB.buffer ++ [b], interByte := 0 } }) ∧
    (s.linkB.receiver = .receiving → s.linkB.buffer.length = 2 →
      field (s.linkB.buffer ++ [b]) 1 2 < 2 ∨ 300 < field (s.linkB.buffer ++ [b]) 1 2 →
      exec (.linkBByteReceived b) s = exec (.frameReject .b .length) s) ∧
    (s.linkB.receiver = .receiving → 3 ≤ s.linkB.buffer.length →
      s.linkB.buffer.length + 1 < field s.linkB.buffer 1 2 + 5 →
      exec (.linkBByteReceived b) s = .next { s with
        linkB := { s.linkB with buffer := s.linkB.buffer ++ [b], interByte := 0 } }) ∧
    (s.linkB.receiver = .receiving → s.canPass (2000 - s.linkB.interByte) = true →
      exec .interByteTimerExpiry s = exec (.frameReject .b .truncated) s) ∧
    (s.linkB.receiver = .discarding → s.canPass (2000 - s.linkB.interByte) = true →
      ∃ t, exec .interByteTimerExpiry s = .next t ∧ t.linkB.receiver = .idle ∧ t.linkB.buffer = [] ∧
        t.linkB.fifo = s.linkB.fifo ∧ t.linkB.framesTaken = s.linkB.framesTaken ∧ t.linkA = s.linkA)

/-- The last byte of a good frame on link B acts as the request that the frame spells: the frame's bytes are read
back as the kind, the tag and the payload they were made of. A frame whose CRC field differs is rejected with CRC.
On link A the bytes of a frame write stand in the receive buffer until CS_A_N rises, and the rise then acts as the request;
while the whole frame waits RDY_A is low; after a bad LEN no byte is kept.
That a command is the rest of a frame or a part of it is the model's (log 2, log 3). -/
def Obligations.LastByteActsAsTheRequest : Prop :=
  (∀ (k : Kind) (tag : Byte) (p : List Byte) (b : Byte) (s : State), s.pins.rstAsserted = false →
    s.linkB.receiver = .receiving → p.length ≤ 298 →
    (s.linkB.buffer ++ [b] = requestFrame (kindCode k) tag p →
      exec (.linkBByteReceived b) s = exec (requestOf k .b tag p) s) ∧
    (s.linkB.buffer = (requestFrame (kindCode k) tag p).dropLast →
      s.linkB.buffer ++ [b] ≠ requestFrame (kindCode k) tag p →
      exec (.linkBByteReceived b) s = exec (.frameReject .b .crc) s)) ∧
  (∀ (k : Kind) (tag : Byte) (p : List Byte) (n : Nat) (s : State), s.pins.rstAsserted = false → p.length ≤ 298 →
    let frame := requestFrame (kindCode k) tag p
    (s.ready .a = true → s.spi.transaction.beforeSelector = true →
      ∃ u, exec (requestBy k (.aUpTo (n + 1)) tag p) s = .next u ∧
        u = { s with spi := { transaction := .writing, sdo := [s.statusOut] },
                     linkA := { s.linkA with receiver := .receiving, buffer := frame.take (n + 1) } } ∧
        (frame.length ≤ n + 1 → u.rdyA = false) ∧
        exec (requestOf k .a tag p) u = exec (requestOf k .a tag p) s ∧
        ∀ r, exec (.frameReject (.aBytes ((frame.drop 1).take n)) r) s = .next u) ∧
    (s.receivingA = true → s.linkA.buffer = frame.take (n + 1) →
      ∀ m, exec (requestBy k (.aUpTo (n + 1 + m)) tag p) s =
        .next { s with linkA := { s.linkA with buffer := frame.take (n + 1 + m) } }) ∧
    (s.receivingA = true → 3 ≤ s.linkA.buffer.length →
      field s.linkA.buffer 1 2 < 2 ∨ 300 < field s.linkA.buffer 1 2 →
      ∀ more r, exec (.frameReject (.aBytes more) r) s =
        .next { s with linkA := { s.linkA with buffer := s.linkA.buffer.take 3 } }))

/-! ### The flash port -/

/-- A normal arrival for one waiting READ, with nothing else to do: the line is installed VALID and unpinned at the
front of its set, the READ is answered with its bytes, its record and the entry are gone, and FSQ is READY; for one
waiting PIN it is installed pinned, the PIN's claim goes and the PIN is answered. A doomed arrival with no waiter leaves its
way INVALID at the back; one whose READ overlaps a hold parks it. A bypass arrival answers a READ and changes no line; a
PIN is looked up again. Then a queued need is handed the slot, or parks; and a WAIT_WAY need of the set is retried. In
SUSPENDED the next entry is served while the fill budget lasts, and then the erase is resumed. -/
def Obligations.FillArrivalEndsTheEntry : Prop :=
  (∀ (data : List Byte) (f : Fill) (v : Fin 4) (s : State), data.length = 64 → s.fills = [f] →
    f.way = some v → f.line % 64 = 0 → s.portIs (.fillRead f.line) = true → s.fsq.resetDue = false →
    s.fsq.state = .reading → s.jq.jobs = [] → s.fsq.pendingProfile = none →
    (∀ r, s.records = [r] → f.doomed = false → f.waiters = [{ id := r.id, index := 0 }] → r.kind = .read →
      r.needs = [.waitFill] → r.status = .ok → r.buffer.length = r.length → lineAddress r.base = f.line →
      r.base % 64 + r.length ≤ 64 → r.session ∈ (s.link r.link).reserved → (s.link r.link).isOpen = true →
      ∃ t, exec (.fillArrival data) s = .next t ∧
        t.set (setIndex f.line) = (s.set (setIndex f.line)).install v (cacheTag f.line) false data ∧
        (∀ i, i ≠ setIndex f.line → t.set i = s.set i) ∧ t.records = [] ∧ t.fills = [] ∧
        (t.link r.link).fifo = (s.link r.link).fifo ++
          [replyMessage .read r.tag .ok ((data.drop (r.base % 64)).take r.length)] ∧
        (t.link r.link).reserved = (s.link r.link).reserved.erase r.session ∧
        t.fsq = { s.fsq with port := none, state := .ready } ∧ t.counters = s.counters ∧ JobSideSame s t) ∧
    (∀ r, s.records = [r] → f.doomed = false → f.waiters = [{ id := r.id, index := 0 }] → r.kind = .pin →
      r.needs = [.waitFill] → lineAddress r.base = f.line → r.session ∈ (s.link r.link).reserved →
      (s.link r.link).isOpen = true →
      ∃ t, exec (.fillArrival data) s = .next t ∧
        t.set (setIndex f.line) =
          { (s.set (setIndex f.line)).install v (cacheTag f.line) true data with
            claims := (s.set (setIndex f.line)).claims - 1 } ∧
        (∀ i, i ≠ setIndex f.line → t.set i = s.set i) ∧ t.records = [] ∧ t.fills = [] ∧
        (t.link r.link).fifo = (s.link r.link).fifo ++
          [replyMessage .pin r.tag r.status (leBytes 2 (r.pinnedCount + 1))] ∧
        t.fsq = { s.fsq with port := none, state := .ready } ∧ t.counters = s.counters ∧ JobSideSame s t) ∧
    (s.records = [] → f.doomed = true → f.waiters = [] →
      ∃ t, exec (.fillArrival data) s = .next t ∧
        t.set (setIndex f.line) = (s.set (setIndex f.line)).drop v ∧
        (∀ i, i ≠ setIndex f.line → t.set i = s.set i) ∧ t.fills = [] ∧ t.records = [] ∧
        t.linkA = s.linkA ∧ t.linkB = s.linkB ∧
        t.fsq = { s.fsq with port := none, state := .ready } ∧ t.counters = s.counters ∧ JobSideSame s t)) ∧
  (∀ (data : List Byte) (f : Fill) (r : Record) (s : State), data.length = 64 →
    s.portIs (.fillRead f.line) = true → s.fsq.resetDue = false → s.records = [r] → s.fill f.line = some f →
    (s.fills = [f] → f.doomed = true → f.waiters = [{ id := r.id, index := 0 }] → r.kind = .read →
      r.needs = [.waitFill] → s.overlapsHold r.range = true →
      ∃ t, exec (.fillArrival data) s = .next t ∧ t.fills = [] ∧
        t.records = [{ r with state := .parked, needs := [.waitRelease] }] ∧
        (∀ v, f.way = some v → t.set (setIndex f.line) = (s.set (setIndex f.line)).drop v) ∧
        t.counters = s.counters) ∧
    (s.fills = [f] → f.doomed = false → f.way = none → f.waiters = [{ id := r.id, index := 0 }] →
      r.needs = [.waitFill] → lineAddress r.base = f.line → s.fsq.state = .reading → s.jq.jobs = [] →
      s.fsq.pendingProfile = none →
      ∃ t, exec (.fillArrival data) s = .next t ∧ JobSideSame s t ∧
        (r.kind = .read → r.status = .ok → r.buffer.length = r.length → r.base % 64 + r.length ≤ 64 →
          r.session ∈ (s.link r.link).reserved → (s.link r.link).isOpen = true →
          t.cache = s.cache ∧ t.records = [] ∧ t.fills = [] ∧ t.counters = s.counters ∧
          (t.link r.link).fifo = (s.link r.link).fifo ++
            [replyMessage .read r.tag .ok ((data.drop (r.base % 64)).take r.length)]) ∧
        (r.kind = .pin → (s.set (setIndex f.line)).hit (cacheTag f.line) = none →
          (∀ w, (s.set (setIndex f.line)).victim = some w →
            t.fills = [{ f with way := some w, phase := .transfer }] ∧ t.records = s.records ∧
            t.set (setIndex f.line) = (s.set (setIndex f.line)).putLine w (.filling (cacheTag f.line)) ∧
            t.counters = { s.counters with lookupMiss := s.counters.lookupMiss + 1 } ∧
            t.fsq = { s.fsq.reads f.line with state := .reading }) ∧
          ((s.set (setIndex f.line)).victim = none → t.fills = [] ∧ t.cache = s.cache ∧
            t.records = [{ r with needs := [.waitWay] }] ∧
            t.counters = { s.counters with lookupMiss := s.counters.lookupMiss + 2 }))) ∧
    (f.waiters = [] → r.kind = .read → r.needs = [.waitSlot] → s.fills.length ≤ 8 →
      (s.overlapsHold r.range = true →
        ∃ t, exec (.fillArrival data) s = .next t ∧
          t.records = [{ r with state := .parked, needs := [.waitRelease] }] ∧ t.counters = s.counters ∧
          t.fills.map Fill.line = (s.fills.filter (fun g => g.line ≠ f.line)).map Fill.line) ∧
      (s.overlapsHold r.range = false → (∀ g ∈ s.fills, g.line ≠ lineAddress r.base) →
        setIndex r.base ≠ setIndex f.line → s.fsq.state ≠ .faulted →
        (s.set (setIndex r.base)).hit (cacheTag r.base) = none →
        ∃ t, exec (.fillArrival data) s = .next t ∧ t.records = [{ r with needs := [.waitFill] }] ∧
          t.counters.lookupMiss = s.counters.lookupMiss + 1 ∧
          t.fills.map Fill.line =
            (s.fills.filter (fun g => g.line ≠ f.line)).map Fill.line ++ [lineAddress r.base] ∧
          ∃ g ∈ t.fills, g.line = lineAddress r.base ∧ g.way = (s.set (setIndex r.base)).victim ∧
            g.doomed = false ∧ g.waiters = [{ id := r.id, index := 0 }])) ∧
    (∀ v, f.way = some v → s.fills = [f] → f.waiters = [] → f.doomed = true → r.kind = .pin →
      r.needs = [.waitWay] → setIndex r.base = setIndex f.line → s.fsq.state ≠ .faulted →
      ((s.set (setIndex r.base)).drop v).hit (cacheTag r.base) = none →
      ∃ t, exec (.fillArrival data) s = .next t ∧ t.records = [{ r with needs := [.waitFill] }] ∧
        t.set (setIndex r.base) = ((s.set (setIndex r.base)).drop v).putLine v (.filling (cacheTag r.base)) ∧
        t.counters = { s.counters with lookupMiss := s.counters.lookupMiss + 1 } ∧
        ∃ x, t.fills = [⟨lineAddress r.base, some v, false, x, [{ id := r.id, index := 0 }]⟩])) ∧
  (∀ (data : List Byte) (f : Fill) (s : State), data.length = 64 → s.portIs (.fillRead f.line) = true →
    s.fsq.resetDue = false → s.fill f.line = some f → s.fsq.state = .suspended →
    ∃ t, exec (.fillArrival data) s = .next t ∧ t.fsq.state = .suspended ∧
      (s.fsq.active.fillBudget ≤ s.fsq.fillsServed ∨ s.fsq.pendingProfile.isSome = true →
        t.fsq.port = some ⟨.resume, s.fsq.active.resumeCommand, [], [], 0, 0, 1⟩ ∧
        t.fsq.fillsServed = s.fsq.fillsServed ∧ t.jq = s.jq) ∧
      (s.fsq.fillsServed < s.fsq.active.fillBudget → s.fsq.pendingProfile = none → s.records = [] →
        f.waiters = [] →
        let left := s.fills.filter (fun g => g.line ≠ f.line)
        match left.find? (fun g => g.phase = .waiting) with
        | some g => t.fills = transferring g.line left ∧
            t.fsq = { s.fsq.reads g.line with fillsServed := s.fsq.fillsServed + 1 }
        | none => t.fills = left ∧
            t.fsq = s.fsq.sending ⟨.resume, s.fsq.active.resumeCommand, [], [], 0, 0, 1⟩))

/-- ISSUE: the end of the write-enable begins the job's own transaction, which carries its command, its address in the
length of the capacity code and its bytes; the end of that one makes the phase BUSY and begins the first status read,
but a RAW job that does not modify ends there with OK, and FSQ goes on from READY.
A transaction on its wires: command, address and data-out bit by bit on FIO0, most significant bit first; dummy periods; and
data-in on FIO1, on FIO1 and FIO0, or on FIO3 to FIO0. That FSQ drives no lane in data-in is the model's (log 27). -/
def Obligations.IssueLeadsToBusy : Prop :=
  ∀ (j : Job) (s : State),
    (s.jobSends .writeEnable j = true → j.kind = .program → ∀ r b d, j.raw = none → j.range = some r →
      j.staging = some b → s.staging[b] = some d →
      exec .writeEnableEnd s = .next (s.updFsq (fun q => q.sending
        ⟨.program, s.fsq.active.programCommand, beBytes (addressBytesOf s.fsq.capCode) r.base, d, 0, 0, 1⟩))) ∧
    (s.jobSends .writeEnable j = true → j.kind = .eraseSector ∨ j.kind = .eraseBlock →
      ∀ r, j.raw = none → j.range = some r →
      exec .writeEnableEnd s = .next (s.updFsq (fun q => q.sending
        ⟨.erase, if j.kind = .eraseSector then s.fsq.active.sectorErase else s.fsq.active.blockErase,
          beBytes (addressBytesOf s.fsq.capCode) r.base, [], 0, 0, 1⟩))) ∧
    (s.jobSends .writeEnable j = true → j.kind = .raw → ∀ d, j.raw = some d →
      exec .writeEnableEnd s = .next (s.updFsq (fun q => q.sending
        ⟨.descriptor, d.command, (match d.address with
          | some a => beBytes (addressBytesOf s.fsq.capCode) a
          | none => []), d.dataOut, d.dummy, d.dataInCount, 1⟩))) ∧
    (s.jobSends .program j = true →
      exec .programTransactionEnd s = .next (busyBegun s (fun x => x))) ∧
    (s.jobSends .erase j = true →
      exec .eraseTransactionEnd s = .next (busyBegun s (fun x => x))) ∧
    (∀ data d, s.jobSends .descriptor j = true → s.portTakes .descriptor data.length = true →
      j.raw = some d →
      (d.modifying = true → exec (.descriptorTransactionEnd data) s =
        .next (busyBegun s (fun x => { x with dataIn := data }))) ∧
      (d.modifying = false → ∃ t, exec (.descriptorTransactionEnd data) s = .next t ∧
        JobGone { j with dataIn := data } .ok s t ∧ FsqGoesOn s t)) ∧
    (∀ (x : Transaction) (levels : List Fio), s.fsq.port = some x →
      x.periods = ((x.command :: (x.address ++ x.dataOut)).flatMap
          (fun b => ([7, 6, 5, 4, 3, 2, 1, 0] : List Nat).map (fun n => Period.drives (b.getLsbD n)))) ++
        List.replicate x.dummy .dummy ++ List.replicate (x.dataIn * 8 / x.lanes) (.takes x.lanes) ∧
      s.fsck = some (100000000 / s.fsq.active.divider) ∧
      s.portEnd levels = some (x.use.endCommand (laneBytes x.lanes levels))) ∧
    (s.fsq.port = none → s.fsck = none) ∧
    (∀ f : Fin 8 → Fio, ∃ b, laneBytes 1 (List.ofFn f) = [b] ∧
      ∀ n : Fin 8, b.getLsbD (7 - n.val) = (f n).getLsbD 1) ∧
    (∀ f : Fin 4 → Fio, ∃ b, laneBytes 2 (List.ofFn f) = [b] ∧
      ∀ n : Fin 4, b.getLsbD (7 - 2 * n.val) = (f n).getLsbD 1 ∧ b.getLsbD (6 - 2 * n.val) = (f n).getLsbD 0) ∧
    (∀ f : Fin 2 → Fio, ∃ b, laneBytes 4 (List.ofFn f) = [b] ∧
      ∀ (n : Fin 2) (i : Fin 4), b.getLsbD (4 - 4 * n.val + i.val) = (f n).getLsbD i.val)

/-- Polling: a status read that reads busy leads to the next read 20 us after its end; once the busy time stands at
the timeout the job times out and FSQ recovers without probe. One that reads busy clear ends the busy period; where the
job ends with it, FSQ goes on from READY. The model: an expiry lets the time left to it pass (log 6). -/
def Obligations.BusyPollingEndsOrTimesOut : Prop :=
  ∀ (j : Job) (s : State),
    (∀ b, s.jobSends .statusRead j = true → b &&& s.fsq.active.busyMask ≠ 0 →
      (timeoutOf s.fsq.active j.kind ≤ j.busyTime → ∃ t, exec (.statusReadEnd b) s = .next t ∧
        JobGone j .flashTimeout s t ∧ RecoveryBegun s.fsq false t.fsq ∧ t.fsq.origin = .job) ∧
      (j.busyTime < timeoutOf s.fsq.active j.kind → s.suspensionDue = false →
        exec (.statusReadEnd b) s = .next (s.updFsq (fun q => q.waiting .poll)))) ∧
    (∀ b, s.jobSends .statusRead j = true → b &&& s.fsq.active.busyMask = 0 →
      (j.kind = .raw ∨ (s.fsq.active.errorStatus = 0 ∧ (j.kind ≠ .program ∨ j.verify = false)) →
        ∃ t, exec (.statusReadEnd b) s = .next t ∧ JobGone j .ok s t ∧ FsqGoesOn s t) ∧
      (j.kind ≠ .raw → s.fsq.active.errorStatus ≠ 0 →
        exec (.statusReadEnd b) s = .next (s.updFsq (fun q => q.sending
          ⟨.errorStatusRead, s.fsq.active.errorStatus, [], [], 0, 1, 1⟩))) ∧
      (j.kind = .program → j.verify = true → s.fsq.active.errorStatus = 0 → ∀ r, j.range = some r →
        exec (.statusReadEnd b) s = .next (verifyBegun s r))) ∧
    (s.fsq.wait = .poll → s.canPass (20 - s.fsq.waitTime) = true →
      exec .pollIntervalExpiry s = .next ((s.advance (20 - s.fsq.waitTime)).updFsq
        (fun q => q.sending ⟨.statusRead, s.fsq.active.statusCommand, [], [], 0, 1, 1⟩))) ∧
    (s.running = some j → j.phase = some .busy → j.busyTime ≤ timeoutOf s.fsq.active j.kind →
      s.canPass (timeoutOf s.fsq.active j.kind - j.busyTime) = true →
      (s.fsq.wait = .poll → ∃ t, exec .operationTimeout s = .next t ∧
        JobGone { j with busyTime := timeoutOf s.fsq.active j.kind } .flashTimeout s t ∧
        RecoveryBegun s.fsq false t.fsq ∧ t.fsq.origin = .job) ∧
      (s.fsq.wait ≠ .poll → s.portIs .statusRead = true → ∃ t, exec .operationTimeout s = .next t ∧
        t.jq.jobs = s.jq.jobs.modifyHead (fun x => { x with busyTime := timeoutOf s.fsq.active j.kind }) ∧
        t.fsq.port = s.fsq.port ∧ t.fsq.state = s.fsq.state))

/-- The error-status read, the clear-status transaction and the verify read end as the masks and the bytes say. Where
the job ends, FSQ goes on from READY. -/
def Obligations.FailuresAndMismatchesEndTheJob : Prop :=
  ∀ (j : Job) (s : State),
    let failed : Status := if j.kind = .program then .programFailed else .eraseFailed
    let mask := if j.kind = .program then s.fsq.active.programFail else s.fsq.active.eraseFail
    (∀ b, s.jobSends .errorStatusRead j = true →
      (b &&& mask ≠ 0 → s.fsq.active.clearStatus = 0 →
        ∃ t, exec (.errorStatusReadEnd b) s = .next t ∧ JobGone j failed s t ∧ FsqGoesOn s t) ∧
      (b &&& mask ≠ 0 → s.fsq.active.clearStatus ≠ 0 →
        exec (.errorStatusReadEnd b) s = .next (s.updFsq (fun q => q.sending
          ⟨.clearStatus, s.fsq.active.clearStatus, [], [], 0, 0, 1⟩))) ∧
      (b &&& mask = 0 → j.kind ≠ .program ∨ j.verify = false →
        ∃ t, exec (.errorStatusReadEnd b) s = .next t ∧ JobGone j .ok s t ∧ FsqGoesOn s t) ∧
      (b &&& mask = 0 → j.kind = .program → j.verify = true → ∀ r, j.range = some r →
        exec (.errorStatusReadEnd b) s = .next (verifyBegun s r))) ∧
    (s.jobSends .clearStatus j = true →
      ∃ t, exec .clearStatusEnd s = .next t ∧ JobGone j failed s t ∧ FsqGoesOn s t) ∧
    (∀ data b d, s.jobSends .verifyRead j = true → s.portTakes .verifyRead data.length = true →
      j.staging = some b → s.staging[b] = some d →
      ∃ t, exec (.verifyReadEnd data) s = .next t ∧
        JobGone j (if data = d then .ok else .verifyMismatch) s t ∧ FsqGoesOn s t)

/-! ### Suspension -/

/-- When the hold time is reached between two status reads and the other conditions of R122 hold, a suspension
begins; when they do not, only time passes. The end of a status read that reads busy begins one in the same way, and so does
an entry that becomes WAITING between two status reads. The model: an expiry lets the time left to it pass (log 6). -/
def Obligations.SuspensionBegins : Prop :=
  ∀ (j : Job) (s : State), s.running = some j → j.isErase = true → j.phase = some .busy →
    (s.fsq.wait = .poll → s.fsq.segTime ≤ s.fsq.active.holdTime * 1000 →
      s.canPass (s.fsq.active.holdTime * 1000 - s.fsq.segTime) = true →
      j.busyTime + (s.fsq.active.holdTime * 1000 - s.fsq.segTime) ≤ timeoutOf s.fsq.active j.kind →
      ∃ t, exec .holdTimeExpiry s = .next t ∧
        (s.suspensionWanted = true →
          t.fsq.state = .suspending ∧ t.fsq.segTime = s.fsq.active.holdTime * 1000 ∧
          t.fsq.port = some ⟨.suspendCommand, s.fsq.active.suspendCommand, [], [], 0, 0, 1⟩ ∧
          t.fsq.wait = .none ∧ t.jq.jobs = s.jq.jobs.modifyHead (fun x => { x with
            phase := some .suspending,
            busyTime := x.busyTime + (s.fsq.active.holdTime * 1000 - s.fsq.segTime) }) ∧
          ReadSideSame s t ∧ t.counters = s.counters) ∧
        (s.suspensionWanted = false →
          t = s.advance (s.fsq.active.holdTime * 1000 - s.fsq.segTime))) ∧
    (∀ b, s.jobSends .statusRead j = true → b &&& s.fsq.active.busyMask ≠ 0 →
      j.busyTime < timeoutOf s.fsq.active j.kind → s.suspensionDue = true →
      ∃ t, exec (.statusReadEnd b) s = .next t ∧ t.fsq.state = .suspending ∧
        t.fsq.port = some ⟨.suspendCommand, s.fsq.active.suspendCommand, [], [], 0, 0, 1⟩ ∧
        t.fsq.wait = .none ∧
        t.jq.jobs = s.jq.jobs.modifyHead (fun x => { x with phase := some .suspending }) ∧
        ReadSideSame s t ∧ t.counters = s.counters) ∧
    (∀ (l : Link) (tag : Byte) (p : List Byte), s.fsq.state = .job → s.fsq.port = none → plainRead l tag p s = true →
      (s.set (setIndex (field p 0 4))).hit (cacheTag (field p 0 4)) = none →
      (∀ f ∈ s.fills, f.line ≠ lineAddress (field p 0 4)) → s.fills.length < 8 →
      (∀ r ∈ s.records, NeedState.waitSlot ∉ r.needs) →
      ∃ t, exec (.read l.arrival tag p) s = .next t ∧
        t.fills = s.fills ++ [newFill l tag (field p 0 4) (s.set (setIndex (field p 0 4))).victim] ∧
        t.records = s.records ++ [waitingRead l tag p .waitFill s] ∧
        (if s.fsq.active.suspendEnable = true ∧ j.suspendCount < s.fsq.active.suspendLimit ∧
            s.fsq.pendingProfile = none ∧ s.fsq.active.holdTime * 1000 ≤ s.fsq.segTime then
          t.fsq = { s.fsq.sending ⟨.suspendCommand, s.fsq.active.suspendCommand, [], [], 0, 0, 1⟩ with
            state := .suspending } ∧
          t.jq = { s.jq with jobs := s.jq.jobs.modifyHead (fun x => { x with phase := some .suspending }) }
        else t.fsq = s.fsq ∧ t.jq = s.jq))

/-- From the suspend command to the resume: the suspended-status reads and their three cases in order, the suspend
timeout, the service of a fill or the resume, and the resume's end. The model: an expiry lets the time left to it
pass (log 6). -/
def Obligations.SuspensionRunsToItsResume : Prop :=
  ∀ (j : Job) (s : State), j.isErase = true →
    (s.jobSends .suspendCommand j = true →
      exec .suspendCommandEnd s = .next (s.updFsq (fun q => { q.sending
        ⟨.suspendedStatusRead, s.fsq.active.suspendedStatus, [], [], 0, 1, 1⟩ with suspendTime := 0 }))) ∧
    (∀ b, s.jobSends .suspendedStatusRead j = true → b &&& s.fsq.active.suspendedMask ≠ 0 →
      0 < s.fsq.active.fillBudget →
      ∃ t, exec (.suspendedStatusReadEnd b) s = .next t ∧ t.fsq.state = .suspended ∧
        t.jq.jobs = s.jq.jobs.modifyHead (fun x => { x with phase := some .suspended }) ∧
        t.counters = s.counters ∧ t.cache = s.cache ∧
        (s.oldestWaiting = none ∨ s.fsq.pendingProfile.isSome = true → t.fills = s.fills ∧
          t.fsq.fillsServed = 0 ∧
          t.fsq.port = some ⟨.resume, s.fsq.active.resumeCommand, [], [], 0, 0, 1⟩) ∧
        (∀ f, s.oldestWaiting = some f → s.fsq.pendingProfile = none →
          t.fills = s.fills.map (fun g => if g.line = f.line then { g with phase := .transfer } else g) ∧
          t.fsq.fillsServed = 1 ∧
          t.fsq.port = some ⟨.fillRead f.line, s.fsq.active.readCommand,
            beBytes (addressBytesOf s.fsq.capCode) f.line, [], s.fsq.active.readDummy, 64,
            s.fsq.active.readLanes⟩)) ∧
    (∀ b, s.jobSends .suspendedStatusRead j = true → b &&& s.fsq.active.suspendedMask = 0 →
      (s.fsq.active.suspendedStatus = s.fsq.active.statusCommand → b &&& s.fsq.active.busyMask = 0 →
        s.fsq.active.errorStatus = 0 →
        ∃ t, exec (.suspendedStatusReadEnd b) s = .next t ∧ JobGone j .ok s t ∧
          FsqGoesOn s t ∧ t.counters.suspension = s.counters.suspension) ∧
      (s.fsq.active.suspendedStatus ≠ s.fsq.active.statusCommand ∨ b &&& s.fsq.active.busyMask ≠ 0 →
        (s.fsq.suspendTime < s.fsq.active.suspendTimeout →
          exec (.suspendedStatusReadEnd b) s = .next (s.updFsq (fun q => q.waiting .suspendPoll))) ∧
        (s.fsq.active.suspendTimeout ≤ s.fsq.suspendTime →
          ∃ t, exec (.suspendedStatusReadEnd b) s = .next t ∧ JobGone j .flashTimeout s t ∧
            RecoveryBegun s.fsq false t.fsq))) ∧
    (s.fsq.wait = .suspendPoll →
      (s.canPass (20 - s.fsq.waitTime) = true →
        exec .suspendPollIntervalExpiry s = .next ((s.advance (20 - s.fsq.waitTime)).updFsq (fun q => q.sending
          ⟨.suspendedStatusRead, s.fsq.active.suspendedStatus, [], [], 0, 1, 1⟩))) ∧
      (s.running = some j → s.phase = some .suspending →
        s.canPass (s.fsq.active.suspendTimeout - s.fsq.suspendTime) = true →
        ∃ t, exec .suspendTimeout s = .next t ∧ JobGone j .flashTimeout s t ∧
          RecoveryBegun s.fsq false t.fsq ∧ t.counters.suspension = s.counters.suspension)) ∧
    (s.jobSends .resume j = true →
      ∃ t, exec .resumeEnd s = .next t ∧
        t.fsq = { s.fsq.sending ⟨.statusRead, s.fsq.active.statusCommand, [], [], 0, 1, 1⟩ with
          state := .job, segTime := 0 } ∧
        t.jq.jobs = s.jq.jobs.modifyHead (fun x => { x with
          suspendCount := x.suspendCount + 1, phase := some .busy }) ∧
        t.counters = { s.counters with suspension := s.counters.suspension + 1 } ∧ ReadSideSame s t)

/-! ### Recovery -/

/-- The attempt of R135 step by step, and its good ends; within the 20 ms and with no restart waiting. The 20 ms reached in a
wait end recovery in FAULTED with RECOVERY_TIMEOUT. The model: a wait's end and a timer's expiry let the time left to them
pass (log 6). -/
def Obligations.RecoveryRunsItsAttempts : Prop :=
  ∀ s : State, s.fsq.resetDue = false → s.fsq.recoveryTime < 20000 →
    (s.portIs .recoveryReset1 = true →
      exec .recoveryResetCommandEnd s = .next (s.updFsq (fun q => q.sending
        ⟨.recoveryReset2, s.fsq.active.secondReset, [], [], 0, 0, 1⟩))) ∧
    (s.portIs .recoveryReset2 = true →
      exec .recoveryResetCommandEnd s = .next (s.updFsq (fun q => q.waiting .recovery))) ∧
    (s.fsq.wait = .recovery → s.canPass (s.fsq.active.recoveryWait * 1000 - s.fsq.waitTime) = true →
      exec .recoveryWaitEnd s = .next
        ((s.advance (s.fsq.active.recoveryWait * 1000 - s.fsq.waitTime)).updFsq (fun q => q.sending
          ⟨.recoveryStatusRead, s.fsq.active.statusCommand, [], [], 0, 1, 1⟩))) ∧
    (∀ b, s.portIs .recoveryStatusRead = true →
      (b &&& s.fsq.active.busyMask = 0 → s.fsq.probe = true →
        exec (.recoveryStatusReadEnd b) s = .next (s.updFsq (fun q => q.sending
          ⟨.recoveryIdRead, 0x9F, [], [], 0, 3, 1⟩))) ∧
      (b &&& s.fsq.active.busyMask = 0 → s.fsq.probe = false →
        ∃ t, exec (.recoveryStatusReadEnd b) s = .next t ∧ ReadyAgain s.fsq.flashId s t) ∧
      (b &&& s.fsq.active.busyMask ≠ 0 → s.fsq.attempt = 1 →
        exec (.recoveryStatusReadEnd b) s = .next (s.updFsq (fun q => { q.sending
          ⟨.recoveryReset1, s.fsq.active.firstReset, [], [], 0, 0, 1⟩ with attempt := 2 })))) ∧
    (∀ id : FlashId, s.portIs .recoveryIdRead = true → id ≠ ⟨0, 0, 0⟩ → id ≠ ⟨0xFF, 0xFF, 0xFF⟩ →
      ∃ t, exec (.recoveryIdReadEnd id) s = .next t ∧ ReadyAgain id s t) ∧
    (s.fsq.state = .recovering → s.fsq.wait = .recovery →
      s.canPass (20000 - s.fsq.recoveryTime) = true →
      ∃ t, exec .recoveryTimeout s = .next t ∧ t.fsq.state = .faulted ∧ t.fsq.cause = .recoveryTimeout ∧
        t.fsq.flashId = s.fsq.flashId ∧ t.fsq.active = s.fsq.active)

/-- Recovery ends in FAULTED by a busy device in attempt 2, an absent one, or the 20 ms, in a wait at once and in any of the
four transactions at its end: every entry has ended and no way is FILLING, every job has ended with FLASH_FAULT, with its
history entry, its count in JOB_FAILED and its JOB_DONE, a record that waits, a pending SET_PROFILE and the RESET_FLASH requests
are answered FLASH_FAULT, and each OPEN link holds FLASH_STATE. The model: an expiry lets the time left to it pass (log 6), and
the 20 ms win over a restart that waits (log 14). -/
def Obligations.EntryToFaultedEndsEverything : Prop :=
  ∀ s : State, CacheOk s →
    (s.fsq.resetDue = false → s.fsq.recoveryTime < 20000 →
      (∀ b, s.portIs .recoveryStatusRead = true → b &&& s.fsq.active.busyMask ≠ 0 → s.fsq.attempt ≠ 1 →
        ∃ t, exec (.recoveryStatusReadEnd b) s = .next t ∧ FaultedNow .stuckBusy s.fsq.flashId s t) ∧
      (∀ id : FlashId, s.portIs .recoveryIdRead = true → id = ⟨0, 0, 0⟩ ∨ id = ⟨0xFF, 0xFF, 0xFF⟩ →
        ∃ t, exec (.recoveryIdReadEnd id) s = .next t ∧ FaultedNow .absent id s t)) ∧
    (s.fsq.state = .recovering → s.fsq.wait = .recovery → s.fsq.port = none →
      s.canPass (20000 - s.fsq.recoveryTime) = true →
      ∃ t, exec .recoveryTimeout s = .next t ∧ FaultedNow .recoveryTimeout s.fsq.flashId s t) ∧
    (s.fsq.state = .recovering → s.fsq.wait ≠ .recovery → s.fsq.recoveryTime ≤ 20000 →
      s.canPass (20000 - s.fsq.recoveryTime) = true →
      ∃ t, exec .recoveryTimeout s = .next t ∧ t.fsq.recoveryTime = 20000 ∧ t.fsq.port = s.fsq.port ∧
        t.fsq.state = .recovering) ∧
    (∀ u ∈ [TransactionUse.recoveryReset1, .recoveryReset2, .recoveryStatusRead, .recoveryIdRead],
      s.portIs u = true → 20000 ≤ s.fsq.recoveryTime → ∀ data : List Byte,
      ∃ t, exec (u.endCommand data) s = .next t ∧ FaultedNow .recoveryTimeout s.fsq.flashId s t)

/-! ### Invariants that every step keeps -/

/-- The invariants hold right after reset. -/
def Obligations.InvariantsHoldAtReset : Prop :=
  SlotsOk .reset ∧ ReservationsOk .reset ∧ RecencyOk .reset ∧ QueueOk .reset ∧ BoundsOk .reset ∧
  CacheOk .reset ∧ HoldOk .reset ∧ StartingOk .reset

/-- R160: on each link reserved plus occupied slots stay within 16, and a frame in reception on link B keeps a
slot; a reservation carries the present session number of its link, and a CLOSED link holds none. Placing only
where a slot is reserved is the model's reading (log 26). -/
def Obligations.StepKeepsReplySlots : Prop :=
  ∀ s t : State, step s = .next t → (SlotsOk s → SlotsOk t) ∧ (ReservationsOk s → ReservationsOk t)

/-- R4: every recency list stays a permutation of its way numbers. -/
def Obligations.StepKeepsRecencyPermutations : Prop :=
  ∀ s t : State, RecencyOk s → step s = .next t → RecencyOk t

/-- R59, R75, R103, R23, R41: at most 8 jobs with none but the oldest RUNNING, and the other bounds. -/
def Obligations.StepKeepsQueueAndBounds : Prop :=
  ∀ s t : State, QueueOk s ∧ BoundsOk s → step s = .next t → QueueOk t ∧ BoundsOk t

/-- R3, R41, R42: one copy of a line in its set, one entry for a line, every FILLING way bound to its entry. -/
def Obligations.StepKeepsOneCopyOfALine : Prop :=
  ∀ s t : State, CacheOk s → step s = .next t → CacheOk t

/-- R82, R83: no held line is VALID, every entry on one is doomed, and no PIN in progress spans one. -/
def Obligations.StepKeepsHoldsClear : Prop :=
  ∀ s t : State, HoldOk s → step s = .next t → HoldOk t

/-- While RST_N is asserted or start-up runs, the part stays empty, its links CLOSED and its port with start-up
alone. FSQ's state while RST_N is asserted is the model's (log 11). -/
def Obligations.StepKeepsStartupEmpty : Prop :=
  ∀ s t : State, StartingOk s → step s = .next t → StartingOk t
end

