-- ==== Sys2Proof/Laws/State.lean ====
section
/-! SUPPORT. What each named update of the state leaves: one lemma per field and update, so that no proof unfolds a
record update. -/

namespace Sys2Proof.Machine

/-! ### updFsq and what is made of it -/

@[simp] theorem updFsq_pending (s : State) (f : Fsq → Fsq) : (s.updFsq f).pending = s.pending := rfl
@[simp] theorem updFsq_pins (s : State) (f : Fsq → Fsq) : (s.updFsq f).pins = s.pins := rfl
@[simp] theorem updFsq_linkA (s : State) (f : Fsq → Fsq) : (s.updFsq f).linkA = s.linkA := rfl
@[simp] theorem updFsq_linkB (s : State) (f : Fsq → Fsq) : (s.updFsq f).linkB = s.linkB := rfl
@[simp] theorem updFsq_spi (s : State) (f : Fsq → Fsq) : (s.updFsq f).spi = s.spi := rfl
@[simp] theorem updFsq_uart (s : State) (f : Fsq → Fsq) : (s.updFsq f).uart = s.uart := rfl
@[simp] theorem updFsq_records (s : State) (f : Fsq → Fsq) : (s.updFsq f).records = s.records := rfl
@[simp] theorem updFsq_cache (s : State) (f : Fsq → Fsq) : (s.updFsq f).cache = s.cache := rfl
@[simp] theorem updFsq_fills (s : State) (f : Fsq → Fsq) : (s.updFsq f).fills = s.fills := rfl
@[simp] theorem updFsq_jq (s : State) (f : Fsq → Fsq) : (s.updFsq f).jq = s.jq := rfl
@[simp] theorem updFsq_staging (s : State) (f : Fsq → Fsq) : (s.updFsq f).staging = s.staging := rfl
@[simp] theorem updFsq_protection (s : State) (f : Fsq → Fsq) : (s.updFsq f).protection = s.protection := rfl
@[simp] theorem updFsq_counters (s : State) (f : Fsq → Fsq) : (s.updFsq f).counters = s.counters := rfl
@[simp] theorem updFsq_fsq (s : State) (f : Fsq → Fsq) : (s.updFsq f).fsq = f s.fsq := rfl
@[simp] theorem begin_pending (s : State) (t : Transaction) : (s.begin t).pending = s.pending := rfl
@[simp] theorem begin_pins (s : State) (t : Transaction) : (s.begin t).pins = s.pins := rfl
@[simp] theorem begin_linkA (s : State) (t : Transaction) : (s.begin t).linkA = s.linkA := rfl
@[simp] theorem begin_linkB (s : State) (t : Transaction) : (s.begin t).linkB = s.linkB := rfl
@[simp] theorem begin_spi (s : State) (t : Transaction) : (s.begin t).spi = s.spi := rfl
@[simp] theorem begin_uart (s : State) (t : Transaction) : (s.begin t).uart = s.uart := rfl
@[simp] theorem begin_records (s : State) (t : Transaction) : (s.begin t).records = s.records := rfl
@[simp] theorem begin_cache (s : State) (t : Transaction) : (s.begin t).cache = s.cache := rfl
@[simp] theorem begin_fills (s : State) (t : Transaction) : (s.begin t).fills = s.fills := rfl
@[simp] theorem begin_jq (s : State) (t : Transaction) : (s.begin t).jq = s.jq := rfl
@[simp] theorem begin_staging (s : State) (t : Transaction) : (s.begin t).staging = s.staging := rfl
@[simp] theorem begin_protection (s : State) (t : Transaction) : (s.begin t).protection = s.protection := rfl
@[simp] theorem begin_counters (s : State) (t : Transaction) : (s.begin t).counters = s.counters := rfl
@[simp] theorem begin_fsq (s : State) (t : Transaction) : (s.begin t).fsq = { s.fsq with port := some t, wait := .none, waitTime := 0 } := rfl
@[simp] theorem endPort_pending (s : State) : (s.endPort).pending = s.pending := rfl
@[simp] theorem endPort_pins (s : State) : (s.endPort).pins = s.pins := rfl
@[simp] theorem endPort_linkA (s : State) : (s.endPort).linkA = s.linkA := rfl
@[simp] theorem endPort_linkB (s : State) : (s.endPort).linkB = s.linkB := rfl
@[simp] theorem endPort_spi (s : State) : (s.endPort).spi = s.spi := rfl
@[simp] theorem endPort_uart (s : State) : (s.endPort).uart = s.uart := rfl
@[simp] theorem endPort_records (s : State) : (s.endPort).records = s.records := rfl
@[simp] theorem endPort_cache (s : State) : (s.endPort).cache = s.cache := rfl
@[simp] theorem endPort_fills (s : State) : (s.endPort).fills = s.fills := rfl
@[simp] theorem endPort_jq (s : State) : (s.endPort).jq = s.jq := rfl
@[simp] theorem endPort_staging (s : State) : (s.endPort).staging = s.staging := rfl
@[simp] theorem endPort_protection (s : State) : (s.endPort).protection = s.protection := rfl
@[simp] theorem endPort_counters (s : State) : (s.endPort).counters = s.counters := rfl
@[simp] theorem endPort_fsq (s : State) : (s.endPort).fsq = { s.fsq with port := none } := rfl
@[simp] theorem beginWait_pending (s : State) (w : Wait) : (s.beginWait w).pending = s.pending := rfl
@[simp] theorem beginWait_pins (s : State) (w : Wait) : (s.beginWait w).pins = s.pins := rfl
@[simp] theorem beginWait_linkA (s : State) (w : Wait) : (s.beginWait w).linkA = s.linkA := rfl
@[simp] theorem beginWait_linkB (s : State) (w : Wait) : (s.beginWait w).linkB = s.linkB := rfl
@[simp] theorem beginWait_spi (s : State) (w : Wait) : (s.beginWait w).spi = s.spi := rfl
@[simp] theorem beginWait_uart (s : State) (w : Wait) : (s.beginWait w).uart = s.uart := rfl
@[simp] theorem beginWait_records (s : State) (w : Wait) : (s.beginWait w).records = s.records := rfl
@[simp] theorem beginWait_cache (s : State) (w : Wait) : (s.beginWait w).cache = s.cache := rfl
@[simp] theorem beginWait_fills (s : State) (w : Wait) : (s.beginWait w).fills = s.fills := rfl
@[simp] theorem beginWait_jq (s : State) (w : Wait) : (s.beginWait w).jq = s.jq := rfl
@[simp] theorem beginWait_staging (s : State) (w : Wait) : (s.beginWait w).staging = s.staging := rfl
@[simp] theorem beginWait_protection (s : State) (w : Wait) : (s.beginWait w).protection = s.protection := rfl
@[simp] theorem beginWait_counters (s : State) (w : Wait) : (s.beginWait w).counters = s.counters := rfl
@[simp] theorem beginWait_fsq (s : State) (w : Wait) : (s.beginWait w).fsq = { s.fsq with wait := w, waitTime := 0 } := rfl
@[simp] theorem setFlash_pending (s : State) (x : FlashState) : (s.setFlash x).pending = s.pending := rfl
@[simp] theorem setFlash_pins (s : State) (x : FlashState) : (s.setFlash x).pins = s.pins := rfl
@[simp] theorem setFlash_linkA (s : State) (x : FlashState) : (s.setFlash x).linkA = s.linkA := rfl
@[simp] theorem setFlash_linkB (s : State) (x : FlashState) : (s.setFlash x).linkB = s.linkB := rfl
@[simp] theorem setFlash_spi (s : State) (x : FlashState) : (s.setFlash x).spi = s.spi := rfl
@[simp] theorem setFlash_uart (s : State) (x : FlashState) : (s.setFlash x).uart = s.uart := rfl
@[simp] theorem setFlash_records (s : State) (x : FlashState) : (s.setFlash x).records = s.records := rfl
@[simp] theorem setFlash_cache (s : State) (x : FlashState) : (s.setFlash x).cache = s.cache := rfl
@[simp] theorem setFlash_fills (s : State) (x : FlashState) : (s.setFlash x).fills = s.fills := rfl
@[simp] theorem setFlash_jq (s : State) (x : FlashState) : (s.setFlash x).jq = s.jq := rfl
@[simp] theorem setFlash_staging (s : State) (x : FlashState) : (s.setFlash x).staging = s.staging := rfl
@[simp] theorem setFlash_protection (s : State) (x : FlashState) : (s.setFlash x).protection = s.protection := rfl
@[simp] theorem setFlash_counters (s : State) (x : FlashState) : (s.setFlash x).counters = s.counters := rfl
@[simp] theorem setFlash_fsq (s : State) (x : FlashState) : (s.setFlash x).fsq = { s.fsq with state := x } := rfl
/-! ### updCounters -/

@[simp] theorem updCounters_pending (s : State) (f : Counters → Counters) : (s.updCounters f).pending = s.pending := rfl
@[simp] theorem updCounters_pins (s : State) (f : Counters → Counters) : (s.updCounters f).pins = s.pins := rfl
@[simp] theorem updCounters_linkA (s : State) (f : Counters → Counters) : (s.updCounters f).linkA = s.linkA := rfl
@[simp] theorem updCounters_linkB (s : State) (f : Counters → Counters) : (s.updCounters f).linkB = s.linkB := rfl
@[simp] theorem updCounters_spi (s : State) (f : Counters → Counters) : (s.updCounters f).spi = s.spi := rfl
@[simp] theorem updCounters_uart (s : State) (f : Counters → Counters) : (s.updCounters f).uart = s.uart := rfl
@[simp] theorem updCounters_records (s : State) (f : Counters → Counters) : (s.updCounters f).records = s.records := rfl
@[simp] theorem updCounters_cache (s : State) (f : Counters → Counters) : (s.updCounters f).cache = s.cache := rfl
@[simp] theorem updCounters_fills (s : State) (f : Counters → Counters) : (s.updCounters f).fills = s.fills := rfl
@[simp] theorem updCounters_jq (s : State) (f : Counters → Counters) : (s.updCounters f).jq = s.jq := rfl
@[simp] theorem updCounters_staging (s : State) (f : Counters → Counters) : (s.updCounters f).staging = s.staging := rfl
@[simp] theorem updCounters_fsq (s : State) (f : Counters → Counters) : (s.updCounters f).fsq = s.fsq := rfl
@[simp] theorem updCounters_protection (s : State) (f : Counters → Counters) : (s.updCounters f).protection = s.protection := rfl
@[simp] theorem updCounters_counters (s : State) (f : Counters → Counters) :
    (s.updCounters f).counters = f s.counters := rfl
/-! ### updSet, mapSets -/

@[simp] theorem updSet_pending (s : State) (i : Fin 128) (f : CacheSet → CacheSet) : (s.updSet i f).pending = s.pending := rfl
@[simp] theorem updSet_pins (s : State) (i : Fin 128) (f : CacheSet → CacheSet) : (s.updSet i f).pins = s.pins := rfl
@[simp] theorem updSet_linkA (s : State) (i : Fin 128) (f : CacheSet → CacheSet) : (s.updSet i f).linkA = s.linkA := rfl
@[simp] theorem updSet_linkB (s : State) (i : Fin 128) (f : CacheSet → CacheSet) : (s.updSet i f).linkB = s.linkB := rfl
@[simp] theorem updSet_spi (s : State) (i : Fin 128) (f : CacheSet → CacheSet) : (s.updSet i f).spi = s.spi := rfl
@[simp] theorem updSet_uart (s : State) (i : Fin 128) (f : CacheSet → CacheSet) : (s.updSet i f).uart = s.uart := rfl
@[simp] theorem updSet_records (s : State) (i : Fin 128) (f : CacheSet → CacheSet) : (s.updSet i f).records = s.records := rfl
@[simp] theorem updSet_fills (s : State) (i : Fin 128) (f : CacheSet → CacheSet) : (s.updSet i f).fills = s.fills := rfl
@[simp] theorem updSet_jq (s : State) (i : Fin 128) (f : CacheSet → CacheSet) : (s.updSet i f).jq = s.jq := rfl
@[simp] theorem updSet_staging (s : State) (i : Fin 128) (f : CacheSet → CacheSet) : (s.updSet i f).staging = s.staging := rfl
@[simp] theorem updSet_fsq (s : State) (i : Fin 128) (f : CacheSet → CacheSet) : (s.updSet i f).fsq = s.fsq := rfl
@[simp] theorem updSet_protection (s : State) (i : Fin 128) (f : CacheSet → CacheSet) : (s.updSet i f).protection = s.protection := rfl
@[simp] theorem updSet_counters (s : State) (i : Fin 128) (f : CacheSet → CacheSet) : (s.updSet i f).counters = s.counters := rfl
@[simp] theorem mapSets_pending (s : State) (f : Fin 128 → CacheSet → CacheSet) : (s.mapSets f).pending = s.pending := by simp only [State.mapSets]
@[simp] theorem mapSets_pins (s : State) (f : Fin 128 → CacheSet → CacheSet) : (s.mapSets f).pins = s.pins := by simp only [State.mapSets]
@[simp] theorem mapSets_linkA (s : State) (f : Fin 128 → CacheSet → CacheSet) : (s.mapSets f).linkA = s.linkA := by simp only [State.mapSets]
@[simp] theorem mapSets_linkB (s : State) (f : Fin 128 → CacheSet → CacheSet) : (s.mapSets f).linkB = s.linkB := by simp only [State.mapSets]
@[simp] theorem mapSets_spi (s : State) (f : Fin 128 → CacheSet → CacheSet) : (s.mapSets f).spi = s.spi := by simp only [State.mapSets]
@[simp] theorem mapSets_uart (s : State) (f : Fin 128 → CacheSet → CacheSet) : (s.mapSets f).uart = s.uart := by simp only [State.mapSets]
@[simp] theorem mapSets_records (s : State) (f : Fin 128 → CacheSet → CacheSet) : (s.mapSets f).records = s.records := by simp only [State.mapSets]
@[simp] theorem mapSets_fills (s : State) (f : Fin 128 → CacheSet → CacheSet) : (s.mapSets f).fills = s.fills := by simp only [State.mapSets]
@[simp] theorem mapSets_jq (s : State) (f : Fin 128 → CacheSet → CacheSet) : (s.mapSets f).jq = s.jq := by simp only [State.mapSets]
@[simp] theorem mapSets_staging (s : State) (f : Fin 128 → CacheSet → CacheSet) : (s.mapSets f).staging = s.staging := by simp only [State.mapSets]
@[simp] theorem mapSets_fsq (s : State) (f : Fin 128 → CacheSet → CacheSet) : (s.mapSets f).fsq = s.fsq := by simp only [State.mapSets]
@[simp] theorem mapSets_protection (s : State) (f : Fin 128 → CacheSet → CacheSet) : (s.mapSets f).protection = s.protection := by simp only [State.mapSets]
@[simp] theorem mapSets_counters (s : State) (f : Fin 128 → CacheSet → CacheSet) : (s.mapSets f).counters = s.counters := by simp only [State.mapSets]
/-! ### updRecord, updFill, withdraw, removeFill -/

@[simp] theorem updRecord_pending (s : State) (id : RecordId) (f : Record → Record) : (s.updRecord id f).pending = s.pending := rfl
@[simp] theorem updRecord_pins (s : State) (id : RecordId) (f : Record → Record) : (s.updRecord id f).pins = s.pins := rfl
@[simp] theorem updRecord_linkA (s : State) (id : RecordId) (f : Record → Record) : (s.updRecord id f).linkA = s.linkA := rfl
@[simp] theorem updRecord_linkB (s : State) (id : RecordId) (f : Record → Record) : (s.updRecord id f).linkB = s.linkB := rfl
@[simp] theorem updRecord_spi (s : State) (id : RecordId) (f : Record → Record) : (s.updRecord id f).spi = s.spi := rfl
@[simp] theorem updRecord_uart (s : State) (id : RecordId) (f : Record → Record) : (s.updRecord id f).uart = s.uart := rfl
@[simp] theorem updRecord_cache (s : State) (id : RecordId) (f : Record → Record) : (s.updRecord id f).cache = s.cache := rfl
@[simp] theorem updRecord_fills (s : State) (id : RecordId) (f : Record → Record) : (s.updRecord id f).fills = s.fills := rfl
@[simp] theorem updRecord_jq (s : State) (id : RecordId) (f : Record → Record) : (s.updRecord id f).jq = s.jq := rfl
@[simp] theorem updRecord_staging (s : State) (id : RecordId) (f : Record → Record) : (s.updRecord id f).staging = s.staging := rfl
@[simp] theorem updRecord_fsq (s : State) (id : RecordId) (f : Record → Record) : (s.updRecord id f).fsq = s.fsq := rfl
@[simp] theorem updRecord_protection (s : State) (id : RecordId) (f : Record → Record) : (s.updRecord id f).protection = s.protection := rfl
@[simp] theorem updRecord_counters (s : State) (id : RecordId) (f : Record → Record) : (s.updRecord id f).counters = s.counters := rfl
@[simp] theorem updFill_pending (s : State) (line : Nat) (g : Fill → Fill) : (s.updFill line g).pending = s.pending := rfl
@[simp] theorem updFill_pins (s : State) (line : Nat) (g : Fill → Fill) : (s.updFill line g).pins = s.pins := rfl
@[simp] theorem updFill_linkA (s : State) (line : Nat) (g : Fill → Fill) : (s.updFill line g).linkA = s.linkA := rfl
@[simp] theorem updFill_linkB (s : State) (line : Nat) (g : Fill → Fill) : (s.updFill line g).linkB = s.linkB := rfl
@[simp] theorem updFill_spi (s : State) (line : Nat) (g : Fill → Fill) : (s.updFill line g).spi = s.spi := rfl
@[simp] theorem updFill_uart (s : State) (line : Nat) (g : Fill → Fill) : (s.updFill line g).uart = s.uart := rfl
@[simp] theorem updFill_records (s : State) (line : Nat) (g : Fill → Fill) : (s.updFill line g).records = s.records := rfl
@[simp] theorem updFill_cache (s : State) (line : Nat) (g : Fill → Fill) : (s.updFill line g).cache = s.cache := rfl
@[simp] theorem updFill_jq (s : State) (line : Nat) (g : Fill → Fill) : (s.updFill line g).jq = s.jq := rfl
@[simp] theorem updFill_staging (s : State) (line : Nat) (g : Fill → Fill) : (s.updFill line g).staging = s.staging := rfl
@[simp] theorem updFill_fsq (s : State) (line : Nat) (g : Fill → Fill) : (s.updFill line g).fsq = s.fsq := rfl
@[simp] theorem updFill_protection (s : State) (line : Nat) (g : Fill → Fill) : (s.updFill line g).protection = s.protection := rfl
@[simp] theorem updFill_counters (s : State) (line : Nat) (g : Fill → Fill) : (s.updFill line g).counters = s.counters := rfl
@[simp] theorem withdraw_pending (s : State) (id : RecordId) : (s.withdraw id).pending = s.pending := rfl
@[simp] theorem withdraw_pins (s : State) (id : RecordId) : (s.withdraw id).pins = s.pins := rfl
@[simp] theorem withdraw_linkA (s : State) (id : RecordId) : (s.withdraw id).linkA = s.linkA := rfl
@[simp] theorem withdraw_linkB (s : State) (id : RecordId) : (s.withdraw id).linkB = s.linkB := rfl
@[simp] theorem withdraw_spi (s : State) (id : RecordId) : (s.withdraw id).spi = s.spi := rfl
@[simp] theorem withdraw_uart (s : State) (id : RecordId) : (s.withdraw id).uart = s.uart := rfl
@[simp] theorem withdraw_records (s : State) (id : RecordId) : (s.withdraw id).records = s.records := rfl
@[simp] theorem withdraw_cache (s : State) (id : RecordId) : (s.withdraw id).cache = s.cache := rfl
@[simp] theorem withdraw_jq (s : State) (id : RecordId) : (s.withdraw id).jq = s.jq := rfl
@[simp] theorem withdraw_staging (s : State) (id : RecordId) : (s.withdraw id).staging = s.staging := rfl
@[simp] theorem withdraw_fsq (s : State) (id : RecordId) : (s.withdraw id).fsq = s.fsq := rfl
@[simp] theorem withdraw_protection (s : State) (id : RecordId) : (s.withdraw id).protection = s.protection := rfl
@[simp] theorem withdraw_counters (s : State) (id : RecordId) : (s.withdraw id).counters = s.counters := rfl
@[simp] theorem removeFill_pending (s : State) (line : Nat) : (s.removeFill line).pending = s.pending := rfl
@[simp] theorem removeFill_pins (s : State) (line : Nat) : (s.removeFill line).pins = s.pins := rfl
@[simp] theorem removeFill_linkA (s : State) (line : Nat) : (s.removeFill line).linkA = s.linkA := rfl
@[simp] theorem removeFill_linkB (s : State) (line : Nat) : (s.removeFill line).linkB = s.linkB := rfl
@[simp] theorem removeFill_spi (s : State) (line : Nat) : (s.removeFill line).spi = s.spi := rfl
@[simp] theorem removeFill_uart (s : State) (line : Nat) : (s.removeFill line).uart = s.uart := rfl
@[simp] theorem removeFill_records (s : State) (line : Nat) : (s.removeFill line).records = s.records := rfl
@[simp] theorem removeFill_cache (s : State) (line : Nat) : (s.removeFill line).cache = s.cache := rfl
@[simp] theorem removeFill_jq (s : State) (line : Nat) : (s.removeFill line).jq = s.jq := rfl
@[simp] theorem removeFill_staging (s : State) (line : Nat) : (s.removeFill line).staging = s.staging := rfl
@[simp] theorem removeFill_fsq (s : State) (line : Nat) : (s.removeFill line).fsq = s.fsq := rfl
@[simp] theorem removeFill_protection (s : State) (line : Nat) : (s.removeFill line).protection = s.protection := rfl
@[simp] theorem removeFill_counters (s : State) (line : Nat) : (s.removeFill line).counters = s.counters := rfl
/-! ### updHead, setPhase -/

@[simp] theorem updHead_pending (s : State) (f : Job → Job) : (s.updHead f).pending = s.pending := rfl
@[simp] theorem updHead_pins (s : State) (f : Job → Job) : (s.updHead f).pins = s.pins := rfl
@[simp] theorem updHead_linkA (s : State) (f : Job → Job) : (s.updHead f).linkA = s.linkA := rfl
@[simp] theorem updHead_linkB (s : State) (f : Job → Job) : (s.updHead f).linkB = s.linkB := rfl
@[simp] theorem updHead_spi (s : State) (f : Job → Job) : (s.updHead f).spi = s.spi := rfl
@[simp] theorem updHead_uart (s : State) (f : Job → Job) : (s.updHead f).uart = s.uart := rfl
@[simp] theorem updHead_records (s : State) (f : Job → Job) : (s.updHead f).records = s.records := rfl
@[simp] theorem updHead_cache (s : State) (f : Job → Job) : (s.updHead f).cache = s.cache := rfl
@[simp] theorem updHead_fills (s : State) (f : Job → Job) : (s.updHead f).fills = s.fills := rfl
@[simp] theorem updHead_staging (s : State) (f : Job → Job) : (s.updHead f).staging = s.staging := rfl
@[simp] theorem updHead_fsq (s : State) (f : Job → Job) : (s.updHead f).fsq = s.fsq := rfl
@[simp] theorem updHead_protection (s : State) (f : Job → Job) : (s.updHead f).protection = s.protection := rfl
@[simp] theorem updHead_counters (s : State) (f : Job → Job) : (s.updHead f).counters = s.counters := rfl
@[simp] theorem updHead_jobs (s : State) (f : Job → Job) : (s.updHead f).jq.jobs = s.jq.jobs.modifyHead f := rfl
@[simp] theorem updHead_history (s : State) (f : Job → Job) : (s.updHead f).jq.history = s.jq.history := rfl
@[simp] theorem setPhase_pending (s : State) (p : Phase) : (s.setPhase p).pending = s.pending := rfl
@[simp] theorem setPhase_pins (s : State) (p : Phase) : (s.setPhase p).pins = s.pins := rfl
@[simp] theorem setPhase_linkA (s : State) (p : Phase) : (s.setPhase p).linkA = s.linkA := rfl
@[simp] theorem setPhase_linkB (s : State) (p : Phase) : (s.setPhase p).linkB = s.linkB := rfl
@[simp] theorem setPhase_spi (s : State) (p : Phase) : (s.setPhase p).spi = s.spi := rfl
@[simp] theorem setPhase_uart (s : State) (p : Phase) : (s.setPhase p).uart = s.uart := rfl
@[simp] theorem setPhase_records (s : State) (p : Phase) : (s.setPhase p).records = s.records := rfl
@[simp] theorem setPhase_cache (s : State) (p : Phase) : (s.setPhase p).cache = s.cache := rfl
@[simp] theorem setPhase_fills (s : State) (p : Phase) : (s.setPhase p).fills = s.fills := rfl
@[simp] theorem setPhase_staging (s : State) (p : Phase) : (s.setPhase p).staging = s.staging := rfl
@[simp] theorem setPhase_fsq (s : State) (p : Phase) : (s.setPhase p).fsq = s.fsq := rfl
@[simp] theorem setPhase_protection (s : State) (p : Phase) : (s.setPhase p).protection = s.protection := rfl
@[simp] theorem setPhase_counters (s : State) (p : Phase) : (s.setPhase p).counters = s.counters := rfl
/-! ### clearRange -/

@[simp] theorem clearRange_pending (s : State) (r : Range) : (s.clearRange r).pending = s.pending := by
  simp only [State.clearRange, State.mapSets]
@[simp] theorem clearRange_pins (s : State) (r : Range) : (s.clearRange r).pins = s.pins := by
  simp only [State.clearRange, State.mapSets]
@[simp] theorem clearRange_linkA (s : State) (r : Range) : (s.clearRange r).linkA = s.linkA := by
  simp only [State.clearRange, State.mapSets]
@[simp] theorem clearRange_linkB (s : State) (r : Range) : (s.clearRange r).linkB = s.linkB := by
  simp only [State.clearRange, State.mapSets]
@[simp] theorem clearRange_spi (s : State) (r : Range) : (s.clearRange r).spi = s.spi := by
  simp only [State.clearRange, State.mapSets]
@[simp] theorem clearRange_uart (s : State) (r : Range) : (s.clearRange r).uart = s.uart := by
  simp only [State.clearRange, State.mapSets]
@[simp] theorem clearRange_records (s : State) (r : Range) : (s.clearRange r).records = s.records := by
  simp only [State.clearRange, State.mapSets]
@[simp] theorem clearRange_jq (s : State) (r : Range) : (s.clearRange r).jq = s.jq := by
  simp only [State.clearRange, State.mapSets]
@[simp] theorem clearRange_staging (s : State) (r : Range) : (s.clearRange r).staging = s.staging := by
  simp only [State.clearRange, State.mapSets]
@[simp] theorem clearRange_fsq (s : State) (r : Range) : (s.clearRange r).fsq = s.fsq := by
  simp only [State.clearRange, State.mapSets]
@[simp] theorem clearRange_protection (s : State) (r : Range) : (s.clearRange r).protection = s.protection := by
  simp only [State.clearRange, State.mapSets]
/-! ### advance -/

@[simp] theorem advance_pending (s : State) (n : Nat) : (s.advance n).pending = s.pending := rfl
@[simp] theorem advance_pins (s : State) (n : Nat) : (s.advance n).pins = s.pins := rfl
@[simp] theorem advance_linkA (s : State) (n : Nat) : (s.advance n).linkA = s.linkA := rfl
@[simp] theorem advance_spi (s : State) (n : Nat) : (s.advance n).spi = s.spi := rfl
@[simp] theorem advance_uart (s : State) (n : Nat) : (s.advance n).uart = s.uart := rfl
@[simp] theorem advance_records (s : State) (n : Nat) : (s.advance n).records = s.records := rfl
@[simp] theorem advance_cache (s : State) (n : Nat) : (s.advance n).cache = s.cache := rfl
@[simp] theorem advance_fills (s : State) (n : Nat) : (s.advance n).fills = s.fills := rfl
@[simp] theorem advance_staging (s : State) (n : Nat) : (s.advance n).staging = s.staging := rfl
@[simp] theorem advance_protection (s : State) (n : Nat) : (s.advance n).protection = s.protection := rfl
@[simp] theorem advance_counters (s : State) (n : Nat) : (s.advance n).counters = s.counters := rfl
/-! ### link A's port -/

@[simp] theorem fallA_pending (s : State) : (s.fallA).pending = s.pending := rfl
@[simp] theorem fallA_pins (s : State) : (s.fallA).pins = s.pins := rfl
@[simp] theorem fallA_linkA (s : State) : (s.fallA).linkA = s.linkA := rfl
@[simp] theorem fallA_linkB (s : State) : (s.fallA).linkB = s.linkB := rfl
@[simp] theorem fallA_uart (s : State) : (s.fallA).uart = s.uart := rfl
@[simp] theorem fallA_records (s : State) : (s.fallA).records = s.records := rfl
@[simp] theorem fallA_cache (s : State) : (s.fallA).cache = s.cache := rfl
@[simp] theorem fallA_fills (s : State) : (s.fallA).fills = s.fills := rfl
@[simp] theorem fallA_jq (s : State) : (s.fallA).jq = s.jq := rfl
@[simp] theorem fallA_staging (s : State) : (s.fallA).staging = s.staging := rfl
@[simp] theorem fallA_fsq (s : State) : (s.fallA).fsq = s.fsq := rfl
@[simp] theorem fallA_protection (s : State) : (s.fallA).protection = s.protection := rfl
@[simp] theorem fallA_counters (s : State) : (s.fallA).counters = s.counters := rfl
@[simp] theorem turnA_pending (s : State) (x : SpiTransaction) : (s.turnA x).pending = s.pending := rfl
@[simp] theorem turnA_pins (s : State) (x : SpiTransaction) : (s.turnA x).pins = s.pins := rfl
@[simp] theorem turnA_linkA (s : State) (x : SpiTransaction) : (s.turnA x).linkA = s.linkA := rfl
@[simp] theorem turnA_linkB (s : State) (x : SpiTransaction) : (s.turnA x).linkB = s.linkB := rfl
@[simp] theorem turnA_uart (s : State) (x : SpiTransaction) : (s.turnA x).uart = s.uart := rfl
@[simp] theorem turnA_records (s : State) (x : SpiTransaction) : (s.turnA x).records = s.records := rfl
@[simp] theorem turnA_cache (s : State) (x : SpiTransaction) : (s.turnA x).cache = s.cache := rfl
@[simp] theorem turnA_fills (s : State) (x : SpiTransaction) : (s.turnA x).fills = s.fills := rfl
@[simp] theorem turnA_jq (s : State) (x : SpiTransaction) : (s.turnA x).jq = s.jq := rfl
@[simp] theorem turnA_staging (s : State) (x : SpiTransaction) : (s.turnA x).staging = s.staging := rfl
@[simp] theorem turnA_fsq (s : State) (x : SpiTransaction) : (s.turnA x).fsq = s.fsq := rfl
@[simp] theorem turnA_protection (s : State) (x : SpiTransaction) : (s.turnA x).protection = s.protection := rfl
@[simp] theorem turnA_counters (s : State) (x : SpiTransaction) : (s.turnA x).counters = s.counters := rfl
@[simp] theorem riseA_pending (s : State) : (s.riseA).pending = s.pending := rfl
@[simp] theorem riseA_pins (s : State) : (s.riseA).pins = s.pins := rfl
@[simp] theorem riseA_linkA (s : State) : (s.riseA).linkA = s.linkA := rfl
@[simp] theorem riseA_linkB (s : State) : (s.riseA).linkB = s.linkB := rfl
@[simp] theorem riseA_uart (s : State) : (s.riseA).uart = s.uart := rfl
@[simp] theorem riseA_records (s : State) : (s.riseA).records = s.records := rfl
@[simp] theorem riseA_cache (s : State) : (s.riseA).cache = s.cache := rfl
@[simp] theorem riseA_fills (s : State) : (s.riseA).fills = s.fills := rfl
@[simp] theorem riseA_jq (s : State) : (s.riseA).jq = s.jq := rfl
@[simp] theorem riseA_staging (s : State) : (s.riseA).staging = s.staging := rfl
@[simp] theorem riseA_fsq (s : State) : (s.riseA).fsq = s.fsq := rfl
@[simp] theorem riseA_protection (s : State) : (s.riseA).protection = s.protection := rfl
@[simp] theorem riseA_counters (s : State) : (s.riseA).counters = s.counters := rfl
@[simp] theorem selectA_pending (s : State) (b : Byte) (x : SpiTransaction) : (s.selectA b x).pending = s.pending := rfl
@[simp] theorem selectA_pins (s : State) (b : Byte) (x : SpiTransaction) : (s.selectA b x).pins = s.pins := rfl
@[simp] theorem selectA_linkA (s : State) (b : Byte) (x : SpiTransaction) : (s.selectA b x).linkA = s.linkA := rfl
@[simp] theorem selectA_linkB (s : State) (b : Byte) (x : SpiTransaction) : (s.selectA b x).linkB = s.linkB := rfl
@[simp] theorem selectA_uart (s : State) (b : Byte) (x : SpiTransaction) : (s.selectA b x).uart = s.uart := rfl
@[simp] theorem selectA_records (s : State) (b : Byte) (x : SpiTransaction) : (s.selectA b x).records = s.records := rfl
@[simp] theorem selectA_cache (s : State) (b : Byte) (x : SpiTransaction) : (s.selectA b x).cache = s.cache := rfl
@[simp] theorem selectA_fills (s : State) (b : Byte) (x : SpiTransaction) : (s.selectA b x).fills = s.fills := rfl
@[simp] theorem selectA_jq (s : State) (b : Byte) (x : SpiTransaction) : (s.selectA b x).jq = s.jq := rfl
@[simp] theorem selectA_staging (s : State) (b : Byte) (x : SpiTransaction) : (s.selectA b x).staging = s.staging := rfl
@[simp] theorem selectA_fsq (s : State) (b : Byte) (x : SpiTransaction) : (s.selectA b x).fsq = s.fsq := rfl
@[simp] theorem selectA_protection (s : State) (b : Byte) (x : SpiTransaction) : (s.selectA b x).protection = s.protection := rfl
@[simp] theorem selectA_counters (s : State) (b : Byte) (x : SpiTransaction) : (s.selectA b x).counters = s.counters := rfl
@[simp] theorem fallA_spi (s : State) : s.fallA.spi =
    { transaction := if s.pins.rstAsserted then .ignored else .selected s.linkStatusByte, sdo := [] } := rfl
@[simp] theorem turnA_spi (s : State) (x : SpiTransaction) : (s.turnA x).spi = { s.spi with transaction := x } := rfl
@[simp] theorem riseA_spi (s : State) : s.riseA.spi = { s.spi with transaction := .none } := rfl
@[simp] theorem selectA_spi (s : State) (b : Byte) (x : SpiTransaction) :
    (s.selectA b x).spi = { transaction := x, sdo := [b] } := rfl
/-! ### updLink, reserve, place, giveNotice -/

@[simp] theorem updLink_pending (s : State) (l : Link) (f : LinkState → LinkState) : (s.updLink l f).pending = s.pending := by cases l <;> rfl
@[simp] theorem updLink_pins (s : State) (l : Link) (f : LinkState → LinkState) : (s.updLink l f).pins = s.pins := by cases l <;> rfl
@[simp] theorem updLink_spi (s : State) (l : Link) (f : LinkState → LinkState) : (s.updLink l f).spi = s.spi := by cases l <;> rfl
@[simp] theorem updLink_uart (s : State) (l : Link) (f : LinkState → LinkState) : (s.updLink l f).uart = s.uart := by cases l <;> rfl
@[simp] theorem updLink_records (s : State) (l : Link) (f : LinkState → LinkState) : (s.updLink l f).records = s.records := by cases l <;> rfl
@[simp] theorem updLink_cache (s : State) (l : Link) (f : LinkState → LinkState) : (s.updLink l f).cache = s.cache := by cases l <;> rfl
@[simp] theorem updLink_fills (s : State) (l : Link) (f : LinkState → LinkState) : (s.updLink l f).fills = s.fills := by cases l <;> rfl
@[simp] theorem updLink_jq (s : State) (l : Link) (f : LinkState → LinkState) : (s.updLink l f).jq = s.jq := by cases l <;> rfl
@[simp] theorem updLink_staging (s : State) (l : Link) (f : LinkState → LinkState) : (s.updLink l f).staging = s.staging := by cases l <;> rfl
@[simp] theorem updLink_fsq (s : State) (l : Link) (f : LinkState → LinkState) : (s.updLink l f).fsq = s.fsq := by cases l <;> rfl
@[simp] theorem updLink_protection (s : State) (l : Link) (f : LinkState → LinkState) : (s.updLink l f).protection = s.protection := by cases l <;> rfl
@[simp] theorem updLink_counters (s : State) (l : Link) (f : LinkState → LinkState) : (s.updLink l f).counters = s.counters := by cases l <;> rfl
@[simp] theorem reserve_pending (s : State) (l : Link) : (s.reserve l).pending = s.pending := by cases l <;> rfl
@[simp] theorem reserve_pins (s : State) (l : Link) : (s.reserve l).pins = s.pins := by cases l <;> rfl
@[simp] theorem reserve_spi (s : State) (l : Link) : (s.reserve l).spi = s.spi := by cases l <;> rfl
@[simp] theorem reserve_uart (s : State) (l : Link) : (s.reserve l).uart = s.uart := by cases l <;> rfl
@[simp] theorem reserve_records (s : State) (l : Link) : (s.reserve l).records = s.records := by cases l <;> rfl
@[simp] theorem reserve_cache (s : State) (l : Link) : (s.reserve l).cache = s.cache := by cases l <;> rfl
@[simp] theorem reserve_fills (s : State) (l : Link) : (s.reserve l).fills = s.fills := by cases l <;> rfl
@[simp] theorem reserve_jq (s : State) (l : Link) : (s.reserve l).jq = s.jq := by cases l <;> rfl
@[simp] theorem reserve_staging (s : State) (l : Link) : (s.reserve l).staging = s.staging := by cases l <;> rfl
@[simp] theorem reserve_fsq (s : State) (l : Link) : (s.reserve l).fsq = s.fsq := by cases l <;> rfl
@[simp] theorem reserve_protection (s : State) (l : Link) : (s.reserve l).protection = s.protection := by cases l <;> rfl
@[simp] theorem reserve_counters (s : State) (l : Link) : (s.reserve l).counters = s.counters := by cases l <;> rfl
@[simp] theorem place_pending (s : State) (l : Link) (x : Byte) (m : Message) : (s.place l x m).pending = s.pending := by cases l <;> rfl
@[simp] theorem place_pins (s : State) (l : Link) (x : Byte) (m : Message) : (s.place l x m).pins = s.pins := by cases l <;> rfl
@[simp] theorem place_spi (s : State) (l : Link) (x : Byte) (m : Message) : (s.place l x m).spi = s.spi := by cases l <;> rfl
@[simp] theorem place_uart (s : State) (l : Link) (x : Byte) (m : Message) : (s.place l x m).uart = s.uart := by cases l <;> rfl
@[simp] theorem place_records (s : State) (l : Link) (x : Byte) (m : Message) : (s.place l x m).records = s.records := by cases l <;> rfl
@[simp] theorem place_cache (s : State) (l : Link) (x : Byte) (m : Message) : (s.place l x m).cache = s.cache := by cases l <;> rfl
@[simp] theorem place_fills (s : State) (l : Link) (x : Byte) (m : Message) : (s.place l x m).fills = s.fills := by cases l <;> rfl
@[simp] theorem place_jq (s : State) (l : Link) (x : Byte) (m : Message) : (s.place l x m).jq = s.jq := by cases l <;> rfl
@[simp] theorem place_staging (s : State) (l : Link) (x : Byte) (m : Message) : (s.place l x m).staging = s.staging := by cases l <;> rfl
@[simp] theorem place_fsq (s : State) (l : Link) (x : Byte) (m : Message) : (s.place l x m).fsq = s.fsq := by cases l <;> rfl
@[simp] theorem place_protection (s : State) (l : Link) (x : Byte) (m : Message) : (s.place l x m).protection = s.protection := by cases l <;> rfl
@[simp] theorem place_counters (s : State) (l : Link) (x : Byte) (m : Message) : (s.place l x m).counters = s.counters := by cases l <;> rfl
@[simp] theorem giveNotice_pending (s : State) (l : Link) (m : Message) : (s.giveNotice l m).pending = s.pending := by cases l <;> rfl
@[simp] theorem giveNotice_pins (s : State) (l : Link) (m : Message) : (s.giveNotice l m).pins = s.pins := by cases l <;> rfl
@[simp] theorem giveNotice_uart (s : State) (l : Link) (m : Message) : (s.giveNotice l m).uart = s.uart := by cases l <;> rfl
@[simp] theorem giveNotice_records (s : State) (l : Link) (m : Message) : (s.giveNotice l m).records = s.records := by cases l <;> rfl
@[simp] theorem giveNotice_cache (s : State) (l : Link) (m : Message) : (s.giveNotice l m).cache = s.cache := by cases l <;> rfl
@[simp] theorem giveNotice_fills (s : State) (l : Link) (m : Message) : (s.giveNotice l m).fills = s.fills := by cases l <;> rfl
@[simp] theorem giveNotice_jq (s : State) (l : Link) (m : Message) : (s.giveNotice l m).jq = s.jq := by cases l <;> rfl
@[simp] theorem giveNotice_staging (s : State) (l : Link) (m : Message) : (s.giveNotice l m).staging = s.staging := by cases l <;> rfl
@[simp] theorem giveNotice_fsq (s : State) (l : Link) (m : Message) : (s.giveNotice l m).fsq = s.fsq := by cases l <;> rfl
@[simp] theorem giveNotice_protection (s : State) (l : Link) (m : Message) : (s.giveNotice l m).protection = s.protection := by cases l <;> rfl
@[simp] theorem giveNotice_counters (s : State) (l : Link) (m : Message) : (s.giveNotice l m).counters = s.counters := by cases l <;> rfl

@[simp] theorem updLink_link (s : State) (l : Link) (f : LinkState → LinkState) :
    (s.updLink l f).link l = f (s.link l) := by cases l <;> rfl

theorem updLink_link_other (s : State) (l k : Link) (f : LinkState → LinkState) (h : k ≠ l) :
    (s.updLink l f).link k = s.link k := by cases l <;> cases k <;> first | rfl | exact absurd rfl h

@[simp] theorem place_link (s : State) (l : Link) (x : Byte) (m : Message) :
    (s.place l x m).link l = (s.link l).place x m := by cases l <;> rfl

theorem place_link_other (s : State) (l k : Link) (x : Byte) (m : Message) (h : k ≠ l) :
    (s.place l x m).link k = s.link k := updLink_link_other s l k _ h

@[simp] theorem reserve_link (s : State) (l : Link) : (s.reserve l).link l = (s.link l).reserve := by
  cases l <;> rfl

end Sys2Proof.Machine
end

