-- ==== Sys2Proof/Laws/Cache.lean ====
section
/-! SUPPORT. What the operations over one set of the cache can do: its ways, its recency list (R4), its claims. -/

namespace Sys2Proof.Machine

/-! ### Reading a set after a change -/

@[simp] theorem updSet_set (s : State) (i : Fin 128) (f : CacheSet → CacheSet) :
    (s.updSet i f).set i = f (s.set i) := by simp [State.updSet, State.set]

theorem updSet_set_other (s : State) (i j : Fin 128) (f : CacheSet → CacheSet) (h : i ≠ j) :
    (s.updSet i f).set j = s.set j := by
  have h' : i.val ≠ j.val := fun e => h (Fin.ext e)
  simp [State.updSet, State.set, h']

@[simp] theorem mapSets_set (s : State) (f : Fin 128 → CacheSet → CacheSet) (i : Fin 128) :
    (s.mapSets f).set i = f i (s.set i) := by simp [State.mapSets, State.set]

/-! ### Ways -/

@[simp] theorem putLine_self (c : CacheSet) (w : Fin 4) (x : Line) : (c.putLine w x).ways[w] = x := by
  simp [CacheSet.putLine]

theorem putLine_other (c : CacheSet) (w v : Fin 4) (x : Line) (h : w ≠ v) :
    (c.putLine w x).ways[v] = c.ways[v] := by
  have h' : w.val ≠ v.val := fun e => h (Fin.ext e)
  simp [CacheSet.putLine, h']

@[simp] theorem putLine_recency (c : CacheSet) (w : Fin 4) (x : Line) : (c.putLine w x).recency = c.recency := rfl
@[simp] theorem putLine_claims (c : CacheSet) (w : Fin 4) (x : Line) : (c.putLine w x).claims = c.claims := rfl
@[simp] theorem toFront_ways (c : CacheSet) (w : Fin 4) : (c.toFront w).ways = c.ways := rfl
@[simp] theorem toFront_recency (c : CacheSet) (w : Fin 4) :
    (c.toFront w).recency = w :: c.recency.erase w := rfl
@[simp] theorem toFront_claims (c : CacheSet) (w : Fin 4) : (c.toFront w).claims = c.claims := rfl
@[simp] theorem toBack_ways (c : CacheSet) (w : Fin 4) : (c.toBack w).ways = c.ways := rfl
@[simp] theorem toBack_recency (c : CacheSet) (w : Fin 4) :
    (c.toBack w).recency = c.recency.erase w ++ [w] := rfl
@[simp] theorem toBack_claims (c : CacheSet) (w : Fin 4) : (c.toBack w).claims = c.claims := rfl

@[simp] theorem drop_self (c : CacheSet) (w : Fin 4) : (c.drop w).ways[w] = .invalid :=
  putLine_self c w .invalid

theorem drop_other (c : CacheSet) (w v : Fin 4) (h : w ≠ v) : (c.drop w).ways[v] = c.ways[v] :=
  putLine_other c w v .invalid h

@[simp] theorem drop_recency (c : CacheSet) (w : Fin 4) : (c.drop w).recency = c.recency.erase w ++ [w] := rfl
@[simp] theorem drop_claims (c : CacheSet) (w : Fin 4) : (c.drop w).claims = c.claims := rfl

/-- Setting the pinned flag keeps state, tag and bytes. -/
theorem withPinned_isValid (x : Line) (p : Bool) : (x.withPinned p).isValid = x.isValid := by cases x <;> rfl
theorem withPinned_tag (x : Line) (p : Bool) : (x.withPinned p).tag = x.tag := by cases x <;> rfl
theorem withPinned_bytes (x : Line) (p : Bool) : (x.withPinned p).bytes = x.bytes := by cases x <;> rfl

/-- Dropping several ways: each becomes INVALID, the others stay. -/
theorem foldl_drop_ways (ws : List (Fin 4)) : ∀ (c : CacheSet) (v : Fin 4),
    (ws.foldl CacheSet.drop c).ways[v] = if v ∈ ws then .invalid else c.ways[v] := by
  induction ws with
  | nil => intro c v; simp
  | cons w ws ih =>
    intro c v
    rw [List.foldl_cons, ih]
    by_cases hv : v ∈ ws
    · simp [hv]
    · by_cases hw : w = v
      · subst hw; rw [drop_self]; simp [hv]
      · rw [drop_other c w v hw]
        simp [hv, Ne.symm hw]

theorem foldl_drop_claims (ws : List (Fin 4)) : ∀ c : CacheSet, (ws.foldl CacheSet.drop c).claims = c.claims := by
  induction ws with
  | nil => intro c; rfl
  | cons w ws ih => intro c; rw [List.foldl_cons, ih, drop_claims]

/-- Discarding a range: a way of the recency list that is discardable becomes INVALID, every other stays. -/
theorem discard_ways (c : CacheSet) (i : Fin 128) (r : Range) (v : Fin 4) :
    (c.discard i r).ways[v] =
      if v ∈ c.recency ∧ c.discardable i r v = true then .invalid else c.ways[v] := by
  rw [CacheSet.discard, foldl_drop_ways]; simp only [List.mem_filter]

theorem discard_claims (c : CacheSet) (i : Fin 128) (r : Range) : (c.discard i r).claims = c.claims :=
  foldl_drop_claims _ c

/-! ### The recency list stays a permutation (R4) -/

theorem toFront_recencyOk {c : CacheSet} (h : c.recencyOk) (w : Fin 4) : (c.toFront w).recencyOk := by
  have hm : w ∈ c.recency := h.symm.subset (by revert w; decide)
  exact (List.perm_cons_erase hm).symm.trans h

theorem toBack_recencyOk {c : CacheSet} (h : c.recencyOk) (w : Fin 4) : (c.toBack w).recencyOk := by
  have hm : w ∈ c.recency := h.symm.subset (by revert w; decide)
  exact (List.perm_append_comm.trans (List.perm_cons_erase hm).symm).trans h

theorem drop_recencyOk {c : CacheSet} (h : c.recencyOk) (w : Fin 4) : (c.drop w).recencyOk :=
  toBack_recencyOk (c := c.putLine w .invalid) h w

theorem install_recencyOk {c : CacheSet} (h : c.recencyOk) (w : Fin 4) (t : Nat) (p : Bool) (d : List Byte) :
    (c.install w t p d).recencyOk := toFront_recencyOk (c := c.putLine w (.valid t p d)) h w

theorem discard_recencyOk {c : CacheSet} (h : c.recencyOk) (i : Fin 128) (r : Range) :
    (c.discard i r).recencyOk := by
  unfold CacheSet.discard
  generalize c.recency.filter (c.discardable i r) = ws
  induction ws generalizing c with
  | nil => exact h
  | cons w ws ih => exact ih (drop_recencyOk h w)

theorem reset_recencyOk : CacheSet.reset.recencyOk := List.Perm.refl _

/-! ### Lines and addresses (R1) -/

/-- A line address is given by its set index and cache tag. -/
theorem wayLine_of_line (a : Nat) (h : a % 64 = 0) : wayLine (setIndex a) (cacheTag a) = a := by
  simp only [wayLine, setIndex, cacheTag]; omega

theorem setIndex_wayLine (i : Fin 128) (t : Nat) : setIndex (wayLine i t) = i := by
  apply Fin.ext; simp only [wayLine, setIndex]; omega

theorem cacheTag_wayLine (i : Fin 128) (t : Nat) : cacheTag (wayLine i t) = t := by
  simp only [wayLine, cacheTag]; omega

theorem lineOf_aligned (r : Record) (i : Nat) : r.lineOf i % 64 = 0 := by
  simp only [Record.lineOf, lineAddress]; omega

/-- The comparison by lines is symmetric (R80). -/
theorem shareLine_comm (r q : Range) : shareLine r q = shareLine q r := by
  simp [shareLine, Bool.and_comm]

end Sys2Proof.Machine
end

