-- ==== Sys2Proof/Laws/Links.lean ====
section
/-! SUPPORT. What the operations over reply slots, frames and notices can do. -/

namespace Sys2Proof.Machine

/-! ### One link -/

/-- A placement under a reservation takes that slot away. -/
theorem place_reserved (k : LinkState) (x : Byte) (m : Message) :
    (k.place x m).reserved = if x ∈ k.reserved then k.reserved.erase x else k.reserved := by
  unfold LinkState.place; split <;> rfl

/-- A placement appends its message exactly on an OPEN link with the reservation. -/
theorem place_fifo (k : LinkState) (x : Byte) (m : Message) :
    (k.place x m).fifo = if x ∈ k.reserved ∧ k.isOpen = true then k.fifo ++ [m] else k.fifo := by
  unfold LinkState.place
  by_cases h : x ∈ k.reserved <;> by_cases o : k.isOpen = true <;> simp [h, o]

@[simp] theorem place_isOpen (k : LinkState) (x : Byte) (m : Message) : (k.place x m).isOpen = k.isOpen := by
  unfold LinkState.place; split <;> rfl
@[simp] theorem place_session (k : LinkState) (x : Byte) (m : Message) : (k.place x m).session = k.session := by
  unfold LinkState.place; split <;> rfl
@[simp] theorem place_holder (k : LinkState) (x : Byte) (m : Message) : (k.place x m).holder = k.holder := by
  unfold LinkState.place; split <;> rfl
@[simp] theorem place_receiver (k : LinkState) (x : Byte) (m : Message) :
    (k.place x m).receiver = k.receiver := by unfold LinkState.place; split <;> rfl
@[simp] theorem place_buffer (k : LinkState) (x : Byte) (m : Message) : (k.place x m).buffer = k.buffer := by
  unfold LinkState.place; split <;> rfl
@[simp] theorem place_interByte (k : LinkState) (x : Byte) (m : Message) :
    (k.place x m).interByte = k.interByte := by unfold LinkState.place; split <;> rfl
@[simp] theorem place_framesTaken (k : LinkState) (x : Byte) (m : Message) :
    (k.place x m).framesTaken = k.framesTaken := by unfold LinkState.place; split <;> rfl
@[simp] theorem place_framesRejected (k : LinkState) (x : Byte) (m : Message) :
    (k.place x m).framesRejected = k.framesRejected := by unfold LinkState.place; split <;> rfl
@[simp] theorem place_overruns (k : LinkState) (x : Byte) (m : Message) :
    (k.place x m).overruns = k.overruns := by unfold LinkState.place; split <;> rfl

/-- A placement never raises the number of slots in use (R160). -/
theorem place_slots (k : LinkState) (x : Byte) (m : Message) :
    (k.place x m).reserved.length + (k.place x m).fifo.length ≤ k.reserved.length + k.fifo.length := by
  unfold LinkState.place
  split
  · next h =>
    have : 0 < k.reserved.length := List.length_pos_of_mem h
    rw [List.length_erase_of_mem h]
    split
    · simp; omega
    · simp
  · exact Nat.le_refl _

/-- Reserving and at once placing under the same session leaves the reservations, in some order. -/
theorem reserve_erase_perm (r : List Byte) (x : Byte) : ((r ++ [x]).erase x).Perm r := by
  have h : (r ++ [x]).Perm (x :: r) := List.perm_append_comm
  simpa using h.erase x

/-- What a link is after a frame is taken. -/
@[simp] theorem take_reserved (k : LinkState) : k.take.reserved = k.reserved ++ [k.session] := rfl
@[simp] theorem take_fifo (k : LinkState) : k.take.fifo = k.fifo := rfl
@[simp] theorem take_isOpen (k : LinkState) : k.take.isOpen = k.isOpen := rfl
@[simp] theorem take_session (k : LinkState) : k.take.session = k.session := rfl
@[simp] theorem take_holder (k : LinkState) : k.take.holder = k.holder := rfl
@[simp] theorem take_receiver (k : LinkState) : k.take.receiver = .idle := rfl
@[simp] theorem take_buffer (k : LinkState) : k.take.buffer = [] := rfl
@[simp] theorem take_framesTaken (k : LinkState) : k.take.framesTaken = k.framesTaken + 1 := rfl
@[simp] theorem take_framesRejected (k : LinkState) : k.take.framesRejected = k.framesRejected := rfl
@[simp] theorem take_overruns (k : LinkState) : k.take.overruns = k.overruns := rfl

/-! ### The whole state once a frame is taken -/

@[simp] theorem afterTake_link (s : State) (l : Link) : (s.afterTake l).link l = (s.link l).take := by
  cases l <;> rfl
@[simp] theorem afterTake_other (s : State) (l : Link) :
    (s.afterTake l).link (otherLink l) = s.link (otherLink l) := by cases l <;> rfl
@[simp] theorem afterTake_transaction (s : State) (l : Link) :
    (s.afterTake l).spi.transaction = if l = .a then .none else s.spi.transaction := by cases l <;> rfl
@[simp] theorem afterTake_pending (s : State) (l : Link) : (s.afterTake l).pending = s.pending := by
  cases l <;> rfl
@[simp] theorem afterTake_pins (s : State) (l : Link) : (s.afterTake l).pins = s.pins := by cases l <;> rfl
@[simp] theorem afterTake_uart (s : State) (l : Link) : (s.afterTake l).uart = s.uart := by cases l <;> rfl
@[simp] theorem afterTake_records (s : State) (l : Link) : (s.afterTake l).records = s.records := by
  cases l <;> rfl
@[simp] theorem afterTake_cache (s : State) (l : Link) : (s.afterTake l).cache = s.cache := by cases l <;> rfl
@[simp] theorem afterTake_fills (s : State) (l : Link) : (s.afterTake l).fills = s.fills := by cases l <;> rfl
@[simp] theorem afterTake_jq (s : State) (l : Link) : (s.afterTake l).jq = s.jq := by cases l <;> rfl
@[simp] theorem afterTake_staging (s : State) (l : Link) : (s.afterTake l).staging = s.staging := by
  cases l <;> rfl
@[simp] theorem afterTake_fsq (s : State) (l : Link) : (s.afterTake l).fsq = s.fsq := by cases l <;> rfl
@[simp] theorem afterTake_protection (s : State) (l : Link) : (s.afterTake l).protection = s.protection := by
  cases l <;> rfl
@[simp] theorem afterTake_counters (s : State) (l : Link) : (s.afterTake l).counters = s.counters := by
  cases l <;> rfl

/-! ### Link A transactions -/

/-- A transaction that is taken up before its first byte is complete: it has begun, with the status byte of its fall. -/
theorem openA_selected {s : State} (hr : s.pins.rstAsserted = false) (hb : s.spi.transaction.beforeSelector = true) :
    s.openA.spi.transaction = .selected s.statusOut := by
  unfold State.openA State.statusOut
  cases ht : s.spi.transaction <;> simp_all [State.fallA, SpiTransaction.beforeSelector]

/-- Beginning a transaction changes nothing but link A's port. -/
theorem openA_frame (s : State) : ∃ p, s.openA = { s with spi := p } := by
  unfold State.openA State.fallA
  split
  · exact ⟨_, rfl⟩
  · exact ⟨s.spi, rfl⟩

/-- Once begun a transaction is not begun again. -/
theorem openA_of_begun {s : State} (h : s.spi.transaction ≠ .none) : s.openA = s := by simp [State.openA, h]

/-- A frame write that is taken up before its selector, on a ready link, is taken. -/
theorem receiveA_fresh {s : State} (fits : List Byte → Bool) (hr : s.pins.rstAsserted = false)
    (hb : s.spi.transaction.beforeSelector = true) (hs : s.ready .a = true) :
    s.receiveA fits = .taken (s.afterTake .a) := by
  obtain ⟨p, hp⟩ := openA_frame s
  unfold State.receiveA
  simp only [openA_selected hr hb, hs, if_true]
  simp [hp, State.selectA, State.afterTake, State.spiRisen, hb, State.take, State.updLink]

/-- On a link that is not ready it is an overrun. -/
theorem receiveA_overrun {s : State} (fits : List Byte → Bool) (hr : s.pins.rstAsserted = false)
    (hb : s.spi.transaction.beforeSelector = true) (hs : s.ready .a = false) :
    s.receiveA fits = .lost { s with spi := s.spiRisen, linkA := s.linkA.overrun } := by
  obtain ⟨p, hp⟩ := openA_frame s
  unfold State.receiveA
  simp only [openA_selected hr hb, hs]
  simp [hp, State.selectA, State.spiRisen, hb, State.updLink]

/-- A frame write in reception is taken at its rise where its bytes fit. -/
theorem receiveA_writing {s : State} {fits : List Byte → Bool} (hw : s.receivingA = true)
    (hf : fits s.linkA.buffer = true) : s.receiveA fits = .taken (s.afterTake .a) := by
  simp only [State.receivingA, Bool.and_eq_true, decide_eq_true_eq] at hw
  have ho : s.openA = s := openA_of_begun (by simp [hw.1])
  unfold State.receiveA
  simp [ho, hw.1, hw.2, hf, State.riseA, State.turnA, State.afterTake, State.spiRisen,
    SpiTransaction.beforeSelector, State.take, State.updLink]

/-- Any other frame write, or a transaction ignored, ends with nothing taken. -/
theorem receiveA_begun {s : State} (fits : List Byte → Bool) :
    (s.spi.transaction = .writing → s.linkA.receiver ≠ .receiving →
      s.receiveA fits = .lost { s with spi := s.spiRisen, linkA := s.linkA.overrun }) ∧
    (s.spi.transaction = .ignored → s.receiveA fits = .lost { s with spi := s.spiRisen }) := by
  refine ⟨fun ht hn => ?_, fun ht => ?_⟩ <;>
    simp [State.receiveA, openA_of_begun, *, State.riseA, State.turnA, State.spiRisen,
      SpiTransaction.beforeSelector, State.updLink]

/-- Bytes of a frame write that come in change link A's port, receiver and receive buffer, nothing else; and a
receiver that is RECEIVING after it was so before, or the link was ready. -/
theorem shiftInA_next {s t : State} {bytes : List Byte → Option (List Byte)} (h : s.shiftInA bytes = .next t) :
    t = { s with spi := t.spi,
                 linkA := { s.linkA with receiver := t.linkA.receiver, buffer := t.linkA.buffer } } ∧
    (t.linkA.receiver = .receiving → s.linkA.receiver = .receiving ∨ s.ready .a = true) := by
  obtain ⟨p, hp⟩ := openA_frame s
  have hr : s.openA.linkA = s.linkA := by rw [hp]
  unfold State.shiftInA State.beginWriteA at h
  rw [hp] at h
  have hrd : State.ready { s with spi := p } .a = s.ready .a := rfl
  simp only [hrd] at h
  split at h
  · cases hb : s.ready .a <;> simp only [hb] at h
    all_goals
      split at h <;> cases h <;> simp [State.selectA, State.updLink, LinkState.receivingBytes] 
  · split at h
    · split at h <;> simp_all [State.updLink, LinkState.receivingBytes]
      subst h; simp_all
    · cases h; simp_all
  · simp at h
  · cases h; simp; intro h; exact Or.inl h

/-- What a moment of a fetch can leave: link A's port changed, the head gone from its FIFO, the holder empty. -/
def FetchLeaves (s t : State) : Prop :=
  t = { s with spi := t.spi, linkA := { s.linkA with fifo := t.linkA.fifo, holder := t.linkA.holder } } ∧
  (t.linkA.fifo = s.linkA.fifo ∨ t.linkA.fifo = s.linkA.fifo.drop 1) ∧
  (t.linkA.holder = s.linkA.holder ∨ t.linkA.holder = none)

theorem fetchLeaves_spi (s : State) (p : SpiPort) : FetchLeaves s { s with spi := p } :=
  ⟨rfl, Or.inl rfl, Or.inl rfl⟩

/-- After a change of the port alone, what can be left is as before it. -/
theorem FetchLeaves.of_spi {s t : State} {p : SpiPort} (h : FetchLeaves { s with spi := p } t) : FetchLeaves s t := h

theorem fetchRise_leaves (s : State) (chosen : Option (Message × Source)) (replaced : Bool) (out : Nat) :
    FetchLeaves s (s.fetchRise chosen replaced out) := by
  unfold State.fetchRise
  split
  · exact fetchLeaves_spi s _
  · next m src =>
    split
    · cases src <;> cases replaced <;> simp [FetchLeaves, State.riseA, State.turnA, State.updLink, LinkState.sent]
    · exact fetchLeaves_spi s _

theorem fetchEnd_next {s t : State} {n : Nat} (h : s.fetchEnd n = .next t) : FetchLeaves s t := by
  unfold State.fetchEnd State.inFetch at h
  split at h <;> cases h
  · exact (fetchRise_leaves _ _ _ _).of_spi
  · exact fetchLeaves_spi s _

theorem firstByte_fetch_next {s t : State} (h : s.firstByte State.fetchSelect = .next t) :
    ∃ p, t = { s with spi := p } := by
  obtain ⟨p, hp⟩ := openA_frame s
  unfold State.firstByte at h
  rw [hp] at h
  simp only at h
  split at h <;> cases h
  · exact ⟨_, rfl⟩
  · exact ⟨_, rfl⟩

/-- A fetch changes link A's port, and of link A its FIFO and holder alone: a message sent leaves. -/
theorem execFetch_next {s t : State} {part : FetchPart} (h : execFetch part s = .next t) : FetchLeaves s t := by
  unfold execFetch at h
  split at h
  · unfold State.fall at h; split at h <;> cases h; exact fetchLeaves_spi s _
  · obtain ⟨p, rfl⟩ := firstByte_fetch_next h; exact fetchLeaves_spi s p
  · unfold State.inFetch at h; split at h <;> cases h <;> exact fetchLeaves_spi s _
  · exact fetchEnd_next h
  · split at h
    · next u hu => obtain ⟨p, rfl⟩ := firstByte_fetch_next hu; exact (fetchEnd_next h).of_spi
    · next o hu => exact absurd h (hu t)

/-! ### A frame that arrives to its end -/

/-- A frame that is taken leaves the state `afterTake`. -/
theorem receive_of_takes (s : State) (l : Link) (frame : List Byte) (h : s.takes l frame = true) :
    s.receive l frame = .taken (s.afterTake l) := by
  unfold State.takes at h
  unfold State.receive
  cases l
  · simp only [Bool.and_eq_true, Bool.not_eq_true', Bool.or_eq_true] at h
    obtain ⟨h1, ⟨h2, h3⟩ | ⟨h2, h3⟩⟩ := h
    · exact receiveA_fresh _ h1 h2 h3
    · exact receiveA_writing h2 h3
  · simp only [Bool.and_eq_true, Bool.not_eq_true', Bool.or_eq_true, decide_eq_true_eq] at h
    obtain ⟨h1, ⟨h2, h3⟩ | ⟨h2, h3⟩⟩ := h
    · simp [State.receiveB, h1, h2, h3, State.afterTake]
    · simp [State.receiveB, h1, h2, h3, State.afterTake]

/-- A request whose frame arrives to its end is the frame taken. -/
theorem requestArrives_arrival (k : Kind) (body : Request → State → State) (l : Link) (tag : Byte) (p : List Byte)
    (s : State) : requestArrives k body l.arrival tag p s = frameTaken k body l tag p s := by
  cases l <;> rfl

/-- The request of a taken frame. -/
theorem frameTaken_of_takes (k : Kind) (body : Request → State → State) (l : Link) (tag : Byte) (p : List Byte)
    (s : State) (h : s.takesRequest k l tag p = true) :
    frameTaken k body l tag p s =
      .next (({ link := l, session := (s.link l).session, tag := tag, payload := p } : Request).serve k body
        (s.afterTake l)) := by
  unfold State.takesRequest at h
  simp only [Bool.and_eq_true, payloadFits, decide_eq_true_eq] at h
  obtain ⟨hp, ht⟩ := h
  have : ¬ maxLen < p.length + 2 := by omega
  simp [frameTaken, this, receive_of_takes s l _ ht, Reception.outcome]

/-- A placement on a link leaves everything else. -/
theorem elsewhere_of_place (s : State) (l : Link) (x : Byte) (m : Message) :
    ElsewhereSame l s ((s.afterTake l).place l x m) := by
  refine ⟨?_, ?_, ?_, ?_, ?_⟩ <;> cases l <;> rfl

/-- A placement changes nothing behind the links. -/
theorem blocks_of_place (s : State) (l : Link) (x : Byte) (m : Message) :
    BlocksSame s ((s.afterTake l).place l x m) := by
  refine ⟨⟨?_, ?_, ?_⟩, ⟨?_, ?_, ?_⟩, ?_, ?_⟩ <;> cases l <;> rfl

/-- A placement made as the answer of a taken frame, on an OPEN link. -/
theorem answered_of_place (s t : State) (l : Link) (m : Message) (h : (s.link l).isOpen = true)
    (hl : t.link l = (s.link l).take.place (s.link l).session m)
    (he : ElsewhereSame l s t) : Answered l m s t := by
  have hm : (s.link l).session ∈ (s.link l).take.reserved := by simp
  refine ⟨?_, ?_, ?_, ?_, ?_, ?_, ?_, ?_, ?_, ?_, he⟩
  all_goals rw [hl]
  · rw [place_fifo]; simp [h]
  · rw [place_reserved, if_pos hm]; exact reserve_erase_perm _ _
  all_goals simp

/-- The same on a CLOSED link: the message is discarded (R161). -/
theorem discarded_of_place (s t : State) (l : Link) (m : Message) (h : (s.link l).isOpen = false)
    (hl : t.link l = (s.link l).take.place (s.link l).session m)
    (he : ElsewhereSame l s t) : FrameTaken l (s.link l).fifo (s.link l).reserved s t := by
  have hm : (s.link l).session ∈ (s.link l).take.reserved := by simp
  refine ⟨?_, ?_, ?_, ?_, ?_, ?_, ?_, ?_, ?_, ?_, he⟩
  all_goals rw [hl]
  · rw [place_fifo]; simp [h]
  · rw [place_reserved, if_pos hm]; exact reserve_erase_perm _ _
  all_goals simp

/-- A taken frame answered at once on an OPEN link. -/
theorem answered_at_once (s : State) (l : Link) (m : Message) (h : (s.link l).isOpen = true) :
    Answered l m s ((s.afterTake l).place l (s.link l).session m) :=
  answered_of_place s _ l m h (by simp) (elsewhere_of_place s l _ m)

/-- A taken frame answered at once on a CLOSED link. -/
theorem discarded_at_once (s : State) (l : Link) (m : Message) (h : (s.link l).isOpen = false) :
    FrameTaken l (s.link l).fifo (s.link l).reserved s ((s.afterTake l).place l (s.link l).session m) :=
  discarded_of_place s _ l m h (by simp) (elsewhere_of_place s l _ m)

/-! ### Steps 4 and 5 of R159 -/

/-- On a CLOSED link a kind that needs a session is refused. -/
theorem serve_closed (q : Request) (k : Kind) (body : Request → State → State) (s : State)
    (hk : needsSession k = true) (h : (s.link q.link).isOpen = false) :
    q.serve k body s = q.refuse k .notOpen s := by simp [Request.serve, hk, h]

/-- A wrong size is refused where the session check passes. -/
theorem serve_wrongSize (q : Request) (k : Kind) (body : Request → State → State) (s : State)
    (h : needsSession k = false ∨ (s.link q.link).isOpen = true) (hs : wrongSize k q.payload = true) :
    q.serve k body s = q.refuse k .badField s := by
  rcases h with h | h <;> simp [Request.serve, h, hs]

/-- Otherwise the request's own part runs. -/
theorem serve_body (q : Request) (k : Kind) (body : Request → State → State) (s : State)
    (h : needsSession k = false ∨ (s.link q.link).isOpen = true) (hs : wrongSize k q.payload = false) :
    q.serve k body s = body q s := by
  rcases h with h | h <;> simp [Request.serve, h, hs]

end Sys2Proof.Machine
end

