-- ==== Sys2Proof/Laws/ReadPath.lean ====
section
/-! SUPPORT. What the operations of the read path can do: records, cache, fills, counts of lookups and placed replies
change; FSQ, the jobs, the staging pool, the sessions and the ports do not. And what the end of a job leaves. -/

namespace Sys2Proof.Machine

/-- Of a link only the FIFO and the reservations may differ. -/
def LinkState.SameButSlots (k m : LinkState) : Prop := m = { k with fifo := m.fifo, reserved := m.reserved }

theorem SameButSlots_fields {k m : LinkState} (h : k.SameButSlots m) :
    m.isOpen = k.isOpen ∧ m.holder = k.holder ∧ m.session = k.session := by
  unfold LinkState.SameButSlots at h
  rw [h]
  exact ⟨rfl, rfl, rfl⟩

/-- Only the read path may differ: records, cache, fills, the counts of lookups and fills, FIFOs and reservations. -/
def ReadPathOnly (s t : State) : Prop :=
  t.fsq = s.fsq ∧ t.jq = s.jq ∧ t.staging = s.staging ∧ t.protection = s.protection ∧ t.pins = s.pins ∧
  t.pending = s.pending ∧ t.spi = s.spi ∧ t.uart = s.uart ∧ t.counters.jobOk = s.counters.jobOk ∧
  t.counters.jobFailed = s.counters.jobFailed ∧ s.linkA.SameButSlots t.linkA ∧ s.linkB.SameButSlots t.linkB

namespace ReadPathOnly

theorem refl (s : State) : ReadPathOnly s s := ⟨rfl, rfl, rfl, rfl, rfl, rfl, rfl, rfl, rfl, rfl, rfl, rfl⟩

theorem trans {s t u : State} (h : ReadPathOnly s t) (g : ReadPathOnly t u) : ReadPathOnly s u := by
  obtain ⟨h1, h2, h3, h4, h5, h6, h7, h8, h9, h10, h11, h12⟩ := h
  obtain ⟨g1, g2, g3, g4, g5, g6, g7, g8, g9, g10, g11, g12⟩ := g
  refine ⟨g1.trans h1, g2.trans h2, g3.trans h3, g4.trans h4, g5.trans h5, g6.trans h6, g7.trans h7, g8.trans h8,
    g9.trans h9, g10.trans h10, ?_, ?_⟩
  · unfold LinkState.SameButSlots at *; rw [g11, h11]
  · unfold LinkState.SameButSlots at *; rw [g12, h12]

/-- A fold of operations that keep to the read path keeps to it. -/
theorem foldl {α : Type} {f : State → α → State} (h : ∀ s x, ReadPathOnly s (f s x)) (xs : List α) (s : State) :
    ReadPathOnly s (xs.foldl f s) := by
  induction xs generalizing s with
  | nil => exact refl s
  | cons x xs ih => exact (h s x).trans (ih (f s x))

end ReadPathOnly

open ReadPathOnly

theorem updSet_only (s : State) (i : Fin 128) (f : CacheSet → CacheSet) : ReadPathOnly s (s.updSet i f) := refl s
theorem updRecord_only (s : State) (id : RecordId) (f : Record → Record) : ReadPathOnly s (s.updRecord id f) := refl s
theorem setNeed_only (s : State) (w : Waiter) (n : NeedState) : ReadPathOnly s (s.setNeed w n) := refl s
theorem dropClaim_only (s : State) (a : Nat) : ReadPathOnly s (s.dropClaim a) := refl s
theorem withdraw_only (s : State) (id : RecordId) : ReadPathOnly s (s.withdraw id) := refl s
theorem removeFill_only (s : State) (a : Nat) : ReadPathOnly s (s.removeFill a) := refl s
theorem countMiss_only (s : State) : ReadPathOnly s s.countMiss := refl s
theorem attach_only (s : State) (a : Nat) (w : Waiter) : ReadPathOnly s (s.attach a w) := refl s
theorem hitRead_only (s : State) (r : Record) (i : Nat) (w : Fin 4) : ReadPathOnly s (s.hitRead r i w) := refl s
theorem hitPin_only (s : State) (r : Record) (i : Nat) (w : Fin 4) : ReadPathOnly s (s.hitPin r i w) := refl s
theorem park_only (s : State) (id : RecordId) : ReadPathOnly s (s.park id) := refl s

theorem place_only (s : State) (l : Link) (x : Byte) (m : Message) : ReadPathOnly s (s.place l x m) := by
  cases l <;> refine ⟨rfl, rfl, rfl, rfl, rfl, rfl, rfl, rfl, rfl, rfl, ?_, ?_⟩ <;>
    simp only [State.place, State.updLink, LinkState.place, LinkState.SameButSlots] <;> split <;> rfl

theorem failNeed_only (s : State) (w : Waiter) : ReadPathOnly s (s.failNeed w) := by
  unfold State.failNeed
  split
  · exact refl s
  · split <;> exact refl s

theorem gather_only (s : State) (a : Nat) : ReadPathOnly s (s.gather a) := foldl (fun t w => attach_only t a w) _ s

theorem createFill_only (s : State) (a : Nat) (v : Option (Fin 4)) (w : Waiter) : ReadPathOnly s (s.createFill a v w) := by
  unfold State.createFill
  exact (refl s).trans (gather_only _ a)

theorem missCreate_only (s : State) (r : Record) (w : Waiter) : ReadPathOnly s (s.missCreate r w) := by
  unfold State.missCreate
  dsimp only
  split
  · exact (updSet_only s _ _).trans (createFill_only _ _ _ _)
  · split
    · exact (createFill_only s _ _ _).trans (refl _)
    · exact setNeed_only s _ _

theorem missNeed_only (s : State) (r : Record) (w : Waiter) : ReadPathOnly s (s.missNeed r w) := by
  unfold State.missNeed
  refine (countMiss_only s).trans ?_
  dsimp only
  split
  · exact failNeed_only _ _
  · split
    · exact attach_only _ _ _
    · split
      · exact missCreate_only _ _ _
      · exact setNeed_only _ _ _

theorem lookup_only (s : State) (w : Waiter) : ReadPathOnly s (s.lookup w) := by
  unfold State.lookup
  split
  · exact refl s
  · dsimp only
    split
    · split
      · exact hitRead_only _ _ _ _
      · exact hitPin_only _ _ _ _
    · exact missNeed_only _ _ _

theorem lookups_only (s : State) (id : RecordId) (is : List Nat) : ReadPathOnly s (s.lookups id is) :=
  foldl (fun t _ => lookup_only t _) is s

theorem complete_only (s : State) (r : Record) : ReadPathOnly s (s.complete r) :=
  (refl s).trans (place_only _ _ _ _)

theorem settle_only (s : State) (id : RecordId) : ReadPathOnly s (s.settle id) := by
  unfold State.settle
  split
  · exact refl s
  · split
    · exact complete_only _ _
    · exact refl s

theorem returnToLookup_only (s : State) (w : Waiter) : ReadPathOnly s (s.returnToLookup w) := by
  unfold State.returnToLookup
  split
  · exact refl s
  · split
    · exact park_only _ _
    · exact (lookup_only s w).trans (settle_only _ _)

theorem release_only (s : State) (id : RecordId) : ReadPathOnly s (s.release id) := by
  unfold State.release
  split
  · exact refl s
  · exact ((updRecord_only s _ _).trans (lookups_only _ _ _)).trans (settle_only _ _)

/-- The re-examination of the PARKED records at the end of a hold. -/
theorem reexamine_only (s : State) : ReadPathOnly s s.reexamine := by
  refine foldl (fun t id => ?_) _ s
  unfold State.reexamineOne
  split
  · exact refl t
  · split
    · exact release_only _ _
    · exact refl t

theorem handSlots_only (ws : List Waiter) (s : State) : ReadPathOnly s (handSlots ws s) := by
  induction ws generalizing s with
  | nil => exact refl s
  | cons w ws ih =>
    unfold handSlots
    split
    · dsimp only
      split
      · exact returnToLookup_only _ _
      · exact (returnToLookup_only s w).trans (ih _)
    · exact ih s

theorem afterEnd_only (s : State) (a : Nat) : ReadPathOnly s (s.afterEnd a) := by
  unfold State.afterEnd
  refine (handSlots_only _ s).trans (foldl (fun t w => ?_) _ _)
  unfold State.retryWay
  split
  · exact returnToLookup_only _ _
  · exact refl t

theorem releaseWay_only (s : State) (f : Fill) : ReadPathOnly s (s.releaseWay f) := by
  unfold State.releaseWay
  split
  · exact refl s
  · exact updSet_only _ _ _

theorem deliver_only (s : State) (d : List Byte) (w : Waiter) : ReadPathOnly s (s.deliver d w) := by
  unfold State.deliver
  split
  · exact refl s
  · split <;> exact (refl s).trans (settle_only _ _)

theorem deliverBypass_only (s : State) (d : List Byte) (w : Waiter) : ReadPathOnly s (s.deliverBypass d w) := by
  unfold State.deliverBypass
  split
  · exact refl s
  · split
    · exact deliver_only _ _ _
    · exact returnToLookup_only _ _

/-- The arrival of an entry's bytes. -/
theorem arrive_only (s : State) (f : Fill) (d : List Byte) : ReadPathOnly s (s.arrive f d) := by
  unfold State.arrive
  split
  · exact (((releaseWay_only s f).trans (removeFill_only _ _)).trans
      (foldl (fun t w => returnToLookup_only t w) _ _)).trans (afterEnd_only _ _)
  · dsimp only
    split
    · exact (((updSet_only s _ _).trans (removeFill_only _ _)).trans
        (foldl (fun t w => deliver_only t d w) _ _)).trans (afterEnd_only _ _)
    · exact ((removeFill_only s _).trans (foldl (fun t w => deliverBypass_only t d w) _ _)).trans (afterEnd_only _ _)

theorem failWaiter_only (s : State) (w : Waiter) : ReadPathOnly s (s.failWaiter w) :=
  (failNeed_only s w).trans (settle_only _ _)

theorem failFill_only (s : State) (a : Nat) : ReadPathOnly s (s.failFill a) := by
  unfold State.failFill
  split
  · exact refl s
  · exact (((releaseWay_only s _).trans (removeFill_only _ _)).trans
      (foldl (fun t w => failWaiter_only t w) _ _)).trans (afterEnd_only _ _)

theorem failIfWaiting_only (n : NeedState) (s : State) (w : Waiter) : ReadPathOnly s (s.failIfWaiting n w) := by
  unfold State.failIfWaiting
  split
  · exact failWaiter_only _ _
  · exact refl s

/-- What fails at the entry to FAULTED (R56). -/
theorem failFills_only (s : State) : ReadPathOnly s s.failFills := by
  unfold State.failFills
  exact ((foldl (fun t w => failIfWaiting_only _ t w) _ s).trans (foldl (fun t w => failIfWaiting_only _ t w) _ _)).trans
    (foldl (fun t a => failFill_only t a) _ _)

/-! ### The end of a job (R69) -/

/-- The head job's end: what it leaves of the queue, the history, FSQ, the buffers and the counts of jobs. -/
theorem endJob_head {s : State} {j : Job} {js : List Job} (h : s.jq.jobs = j :: js) (o : Status) :
    (s.endJob 0 o).jq = { s.jq with jobs := js, history := appendHistory s.jq.history (j.entry o) } ∧
    (s.endJob 0 o).fsq = { s.fsq with burst := 0 } ∧ (s.endJob 0 o).staging = (s.freeStaging j).staging ∧
    (s.endJob 0 o).protection = s.protection ∧
    (s.endJob 0 o).counters.jobOk = (s.counters.countJob o).jobOk ∧
    (s.endJob 0 o).counters.jobFailed = (s.counters.countJob o).jobFailed ∧
    (∀ l, ((s.endJob 0 o).link l).isOpen = (s.link l).isOpen ∧ ((s.endJob 0 o).link l).holder = (s.link l).holder ∧
      ((s.endJob 0 o).link l).session = (s.link l).session) := by
  have key : ∃ t, ReadPathOnly { s with
      jq := { s.jq with jobs := js, history := appendHistory s.jq.history (j.entry o) },
      fsq := { s.fsq with burst := 0 }, staging := (s.freeStaging j).staging,
      counters := s.counters.countJob o } t ∧ s.endJob 0 o = t := by
    refine ⟨_, ?_, rfl⟩
    unfold State.endJob
    simp only [h, List.getElem?_cons_zero, List.eraseIdx_cons_zero, if_true]
    have note : ∀ (u : State), ReadPathOnly u (u.notifyJob { j with outcome := some o } o) := by
      intro u
      unfold State.notifyJob
      split
      · exact place_only _ _ _ _
      · exact refl u
    have base : ∀ u v : State, u = v → ∀ w, ReadPathOnly v w → ReadPathOnly u w := fun _ _ e _ g => e ▸ g
    cases hs : j.staging <;> cases hr : j.range <;>
      simp only [State.freeStaging, hs, State.updFsq, State.updCounters, Option.getD_some]
    · exact note _
    · exact (note _).trans (reexamine_only _)
    · exact note _
    · exact (note _).trans (reexamine_only _)
  obtain ⟨t, ⟨h1, h2, h3, h4, -, -, -, -, h9, h10, h11, h12⟩, e⟩ := key
  rw [e]
  refine ⟨h2, h1, h3, h4, h9, h10, fun l => ?_⟩
  cases l
  · exact SameButSlots_fields h11
  · exact SameButSlots_fields h12

/-- Every job of the queue ends with FLASH_FAULT (R77, R140): the queue is empty, and each has its history entry and its
count. -/
theorem endAllJobs_ends (js : List Job) (s : State) (h : s.jq.jobs = js) :
    (endAllJobs js s).jq = { s.jq with
      jobs := [], history := js.foldl (fun e j => appendHistory e (j.entry .flashFault)) s.jq.history } ∧
    (endAllJobs js s).fsq = { s.fsq with burst := if js = [] then s.fsq.burst else 0 } ∧
    (endAllJobs js s).protection = s.protection ∧ (endAllJobs js s).counters.jobOk = s.counters.jobOk ∧
    (endAllJobs js s).counters.jobFailed = s.counters.jobFailed + BitVec.ofNat 32 js.length := by
  induction js generalizing s with
  | nil =>
    have e : s.jq = { s.jq with jobs := [] } := congrArg (fun xs => { s.jq with jobs := xs }) h
    exact ⟨e, by simp [endAllJobs], rfl, rfl, by simp [endAllJobs]⟩
  | cons j js ih =>
    obtain ⟨h1, h2, -, h4, h5, h6, -⟩ := endJob_head h .flashFault
    obtain ⟨i1, i2, i3, i4, i5⟩ := ih (s.endJob 0 .flashFault) (by rw [h1])
    refine ⟨by rw [endAllJobs, i1, h1]; rfl, ?_, i3.trans h4, i4.trans h5, ?_⟩
    · rw [endAllJobs, i2, h2]
      split <;> rfl
    · rw [endAllJobs, i5, h6]
      have : BitVec.ofNat 32 (j :: js).length = 1 + BitVec.ofNat 32 js.length := by
        rw [List.length_cons, Nat.add_comm, BitVec.ofNat_add]
        rfl
      rw [this, ← BitVec.add_assoc]
      rfl

end Sys2Proof.Machine
end

