-- ==== Sys2Proof/Laws/Step.lean ====
section
/-! SUPPORT. What one step does, said once; and the two outcomes of a timer's command. -/

namespace Sys2Proof.Machine

/-- With commands waiting, a step is the front command on the state with the queue's rest. -/
theorem step_cons {s : State} {c : Instr} {rest : List Instr} (h : s.pending = c :: rest) :
    step s = exec c { s with pending := rest } := by
  simp [step, h]

/-- With none waiting, a step is a tick. -/
theorem step_nil {s : State} (h : s.pending = []) : step s = .next s.tick := by
  simp [step, h]

/-- A step answers a next state either by a tick or by the front command. -/
theorem step_next {s t : State} (h : step s = .next t) :
    (s.pending = [] ∧ t = s.tick) ∨
    (∃ c rest, s.pending = c :: rest ∧ exec c { s with pending := rest } = .next t) := by
  cases hp : s.pending with
  | nil => rw [step_nil hp] at h; cases h; exact .inl ⟨rfl, rfl⟩
  | cons c rest => rw [step_cons hp] at h; exact .inr ⟨c, rest, rfl, h⟩

/-- A timer's command acts after the time that is left to it, or another timer is due first. -/
theorem atExpiry_next {s t : State} {left : Nat} {act : State → State}
    (h : atExpiry s left act = .next t) : s.canPass left = true ∧ t = act (s.advance left) := by
  unfold atExpiry at h
  split at h
  · cases h; exact ⟨by assumption, rfl⟩
  · cases h

theorem atExpiry_of_canPass {s : State} {left : Nat} {act : State → State} (h : s.canPass left = true) :
    atExpiry s left act = .next (act (s.advance left)) := by
  simp [atExpiry, h]

/-- The end of a job's transaction, with no RESET_FLASH waiting, is the act on the state with the port free. -/
theorem jobTransactionEnd_act {s : State} {use : TransactionUse} {j : Job} {act : Job → State → State}
    (hp : s.portIs use = true) (hr : s.running = some j) (hd : s.fsq.resetDue = false) :
    jobTransactionEnd s use act = .next (act j s.endPort) := by
  simp [jobTransactionEnd, hp, hr, State.endPort, State.updFsq, hd]

/-- With one waiting, it takes effect instead. -/
theorem jobTransactionEnd_reset {s : State} {use : TransactionUse} {j : Job} {act : Job → State → State}
    (hp : s.portIs use = true) (hr : s.running = some j) (hd : s.fsq.resetDue = true) :
    jobTransactionEnd s use act = .next s.endPort.resetTakesEffect := by
  simp [jobTransactionEnd, hp, hr, State.endPort, State.updFsq, hd]

/-- Ending the transaction changes nothing but the port. -/
theorem endPort_eq (s : State) : s.endPort = { s with fsq := { s.fsq with port := none } } := rfl

/-- Time changes no block but the timers and the head job's busy time. -/
theorem advance_frame (s : State) (n : Nat) :
    (s.advance n).pending = s.pending ∧ (s.advance n).pins = s.pins ∧ (s.advance n).linkA = s.linkA ∧
    (s.advance n).spi = s.spi ∧ (s.advance n).uart = s.uart ∧ (s.advance n).records = s.records ∧
    (s.advance n).cache = s.cache ∧ (s.advance n).fills = s.fills ∧ (s.advance n).staging = s.staging ∧
    (s.advance n).protection = s.protection ∧ (s.advance n).counters = s.counters ∧
    (s.advance n).jq.nextId = s.jq.nextId ∧ (s.advance n).jq.history = s.jq.history :=
  ⟨rfl, rfl, rfl, rfl, rfl, rfl, rfl, rfl, rfl, rfl, rfl, rfl, rfl⟩

end Sys2Proof.Machine
end

