-- ==== Sys2Proof/Laws/Waiting.lean ====
section
/-! SUPPORT. The RESET_FLASH that waits next: when there is none, how an event goes on then, and that the very next step
takes and serves the one there is (log 30). -/

namespace Sys2Proof.Machine

/-- Nothing waits. -/
theorem resetNext_of_pending_nil {s : State} (h : s.pending = []) : s.resetNext = none := by simp [State.resetNext, h]

/-- With none waiting, a job's end goes on by an arbitration. -/
theorem finishJob_of_none {s : State} {o : Status} (h : ((s.endJob 0 o).setFlash .ready).resetNext = none) :
    s.finishJob o = ((s.endJob 0 o).setFlash .ready).arbitrate := by simp [State.finishJob, h]

/-- With one waiting, no job is started at a job's end. -/
theorem finishJob_of_some {s : State} {o : Status} {l : Link}
    (h : ((s.endJob 0 o).setFlash .ready).resetNext = some l) :
    s.finishJob o = ((s.endJob 0 o).setFlash .ready).applyProfile.serveOldest := by simp [State.finishJob, h]

/-- The waiting request is the front command, and its frame is taken on an OPEN link; or its last byte is, on link B. -/
theorem resetNext_some {s : State} {l : Link} (h : s.resetNext = some l) :
    (∃ tag rest, s.pending = .resetFlash l.arrival tag [] :: rest ∧ s.acceptsReset l tag = true) ∨
    (∃ b rest, l = .b ∧ s.pending = .linkBByteReceived b :: rest ∧ s.lastByteOfReset b = true) := by
  unfold State.resetNext at h
  split at h
  · rename_i tag rest e
    split at h
    · rename_i c
      cases h
      exact .inl ⟨tag, rest, e, c⟩
    · cases h
  · rename_i tag rest e
    split at h
    · rename_i c
      cases h
      exact .inl ⟨tag, rest, e, c⟩
    · cases h
  · rename_i b rest e
    split at h
    · rename_i c
      cases h
      exact .inr ⟨b, rest, rfl, e, c⟩
    · cases h
  · cases h

/-- A RESET_FLASH frame that is accepted runs its own part on the state with the frame taken. -/
theorem execResetFlash_of_accepts {s : State} {l : Link} {tag : Byte} (h : s.acceptsReset l tag = true) :
    exec (.resetFlash l.arrival tag []) s =
      .next (resetFlashBody { link := l, session := (s.link l).session, tag := tag, payload := [] } (s.afterTake l)) := by
  unfold State.acceptsReset at h
  simp only [Bool.and_eq_true] at h
  obtain ⟨ht, ho⟩ := h
  have hr : s.takesRequest .resetFlash l tag [] = true := by simp [State.takesRequest, ht, payloadFits, maxLen]
  have ha : ((s.afterTake l).link l).isOpen = true := by simp [ho]
  show execResetFlash l.arrival tag [] s = _
  rw [execResetFlash, requestArrives_arrival, frameTaken_of_takes _ _ _ _ _ _ hr, serve_body _ _ _ _ (.inr ha) rfl]

/-- The queue plays no part in whether a RESET_FLASH frame is accepted. -/
theorem acceptsReset_pending (s : State) (l : Link) (tag : Byte) (cs : List Instr) :
    ({ s with pending := cs } : State).acceptsReset l tag = s.acceptsReset l tag := by cases l <;> rfl

/-- The next step takes and serves a RESET_FLASH that waits next. -/
theorem step_of_resetNext {s : State} {l : Link} {tag : Byte} {rest : List Instr}
    (h : s.pending = .resetFlash l.arrival tag [] :: rest) (ha : s.acceptsReset l tag = true) :
    step s = .next (resetFlashBody { link := l, session := (s.link l).session, tag := tag, payload := [] }
      (({ s with pending := rest } : State).afterTake l)) := by
  rw [step_cons h, execResetFlash_of_accepts (by rw [acceptsReset_pending]; exact ha)]
  cases l <;> rfl

end Sys2Proof.Machine
end

