-- ==== Sys2Proof/Laws/Wires.lean ====
section
/-! SUPPORT. Bits and lanes: what is sent on FIO0, and what a device gives on the lanes, spells the bytes again. -/

namespace Sys2Proof.Machine

/-- The bits of a byte spell it. -/
theorem bitsByte_byteBits : ∀ b : Byte, bitsByte (byteBits b) = b := by decide +kernel

theorem bitsBytes_cons (b : Byte) (rest : List Bool) : bitsBytes (byteBits b ++ rest) = b :: bitsBytes rest :=
  congrArg (· :: bitsBytes rest) (bitsByte_byteBits b)

/-- The bits of bytes spell them. -/
theorem bitsBytes_flatMap (bs : List Byte) : bitsBytes (bs.flatMap byteBits) = bs := by
  induction bs with
  | nil => rfl
  | cons b bs ih => rw [List.flatMap_cons, bitsBytes_cons, ih]

/-- A byte given on the lanes is taken most significant bit first, whichever lanes carry it. -/
theorem laneBits_byteLevels {lanes : Nat} (h : lanes = 1 ∨ lanes = 2 ∨ lanes = 4) :
    ∀ b : Byte, (byteLevels lanes b).flatMap (laneBits lanes) = byteBits b := by
  rcases h with rfl | rfl | rfl <;> decide +kernel

/-- The bytes a device gives on the lanes are the bytes taken. -/
theorem laneBytes_byteLevels {lanes : Nat} (h : lanes = 1 ∨ lanes = 2 ∨ lanes = 4) (bs : List Byte) :
    laneBytes lanes (bs.flatMap (byteLevels lanes)) = bs := by
  have : (bs.flatMap (byteLevels lanes)).flatMap (laneBits lanes) = bs.flatMap byteBits := by
    rw [List.flatMap_assoc]
    exact congrArg (fun f => bs.flatMap f) (funext (laneBits_byteLevels h))
  rw [laneBytes, this, bitsBytes_flatMap]

/-- The end of the transaction in progress is the command of its use. -/
theorem portEnd_of_port {s : State} {t : Transaction} (h : s.fsq.port = some t) (levels : List Fio) :
    s.portEnd levels = some (t.use.endCommand (laneBytes t.lanes levels)) := by simp [State.portEnd, h]

end Sys2Proof.Machine
end

