-- ==== Sys2Proof/Tests/Slice0.lean ====
section
/-! SUPPORT. The tests: ill-formed commands, the codecs against the spec's numbers, single steps, and for every
obligation with hypotheses a state and operands that meet them, at the boundary values of its clauses. -/

set_option Elab.async false

namespace Sys2Proof.Tests

open Sys2Proof.Machine

/-! ### Well-formedness -/

/-- One byte more than a frame can carry. -/
def tooLong : List Byte := List.replicate 299 0

theorem test_wf_request : (Instr.nop .a 1 [1, 2]).wf = true ∧ (Instr.read .b 1 tooLong).wf = false := by
  decide +kernel

theorem test_wf_every_request_checks_its_size :
    (allKinds.all (fun k => !(requestOf k .a 1 tooLong).wf && (requestOf k .a 1 (tooLong.drop 1)).wf)) = true := by
  decide +kernel

theorem test_wf_unknown_kind : (Instr.unknownKind .a 0x50 1 []).wf = true ∧
    (Instr.unknownKind .a 0x10 1 []).wf = false ∧ (Instr.unknownKind .a 0x50 1 tooLong).wf = false := by
  decide +kernel

theorem test_wf_ignored_transaction :
    ([IgnoredPart.whole, .select].map (fun f => ([0x00, 0x5E, 0xC3] : List Byte).map (fun b =>
      (Instr.linkAIgnoredTransaction (f b)).wf))) = [[true, false, false], [true, false, false]] := by decide +kernel

theorem test_wf_fill_arrival : (Instr.fillArrival (List.replicate 64 0)).wf = true ∧
    (Instr.fillArrival (List.replicate 63 0)).wf = false := by decide +kernel

theorem test_wf_descriptor_end : (Instr.descriptorTransactionEnd (List.replicate 16 0)).wf = true ∧
    (Instr.descriptorTransactionEnd (List.replicate 17 0)).wf = false := by decide +kernel

theorem test_wf_verify_end : (Instr.verifyReadEnd (List.replicate 256 0)).wf = true ∧
    (Instr.verifyReadEnd []).wf = false ∧ (Instr.verifyReadEnd (List.replicate 257 0)).wf = false := by
  decide +kernel

/-! ### Codecs -/

/-- R170: the CRC of the text 123456789 is 0x29B1. -/
theorem test_crc : crc16 [0x31, 0x32, 0x33, 0x34, 0x35, 0x36, 0x37, 0x38, 0x39] = 0x29B1 := by decide +kernel

theorem test_default_profile_parses : parseProfile (profileBytes defaultProfile) = some defaultProfile := by
  decide +kernel

theorem test_profile_size : (profileBytes defaultProfile).length = 34 := by decide +kernel

/-- 00 R1: most significant byte first on the flash port; 00 0.5: least significant first in frames. -/
theorem test_byte_orders : beBytes 3 0x012345 = [0x01, 0x23, 0x45] ∧ leBytes 4 0x01234567 = [0x67, 0x45, 0x23, 0x01] ∧
    field [0, 0x67, 0x45, 0x23, 0x01] 1 4 = 0x01234567 := by decide +kernel

/-- 00 R1: sets, tags and lines of an address. -/
theorem test_address_split : setIndex 0x4040 = 1 ∧ cacheTag 0x4040 = 2 ∧ lineAddress 0x407F = 0x4040 ∧
    wayLine 1 2 = 0x4040 ∧ lineCount 0x403F 2 = 2 := by decide +kernel

/-- R94, R98: bits go most significant first; 0xA5 on FIO1, on FIO1 and FIO0, and on FIO3 to FIO0. -/
theorem test_lanes : byteBits 0xA5 = [true, false, true, false, false, true, false, true] ∧
    laneBytes 1 [2, 0, 2, 0, 0, 2, 0, 2] = [0xA5] ∧ laneBytes 2 [2, 2, 1, 1] = [0xA5] ∧
    laneBytes 4 [0xA, 0x5] = [0xA5] := by decide +kernel

/-- R102: a default line read is 8 command, 24 address and 512 data-in periods, with FSCK at 6.25 MHz. -/
theorem test_wires_of_a_line_read :
    let x : Transaction := ⟨.fillRead 0x4040, 0x03, [0x00, 0x40, 0x40], [], 0, 64, 1⟩
    let s : State := { State.reset with fsq := { State.reset.fsq with port := some x } }
    x.periods.length = 544 ∧ x.periods.take 8 = [false, false, false, false, false, false, true, true].map .drives ∧
    s.fsck = some 6250000 ∧ s.portEnd (List.replicate 512 2) = some (.fillArrival (List.replicate 64 0xFF)) ∧
    State.reset.fsck = none := by decide +kernel

theorem test_decode_table_word : decodeTableWord 16 0x1234 = none := by decide +kernel

theorem test_with_fetch_word : State.reset.withFetchWord 16 0x1234 = State.reset := by rfl

/-! ### States to test on -/

/-- An OPEN link with nothing waiting. -/
def openLink : LinkState := { LinkState.reset with isOpen := true, session := 1 }

/-- Both sessions OPEN, FSQ READY with the port idle, everything else as after reset. -/
def ready : State :=
  { State.reset with
    linkA := openLink, linkB := openLink
    fsq := { State.reset.fsq with state := .ready, wait := .none } }

/-- `ready` with FSQ changed. -/
def readyBut (f : Fsq → Fsq) : State := { ready with fsq := f ready.fsq }

/-- The transaction on the port of an FSQ in some state. -/
def onPort (u : TransactionUse) (n : Nat) (st : FlashState) (q : Fsq) : Fsq :=
  { q with port := some (readBytes u 0x05 n), state := st }

/-- The port in use by a fill for some other line. -/
def busyPort : State := readyBut (onPort (.fillRead 0x8000) 64 .reading)

/-- A job of link A. -/
def aJob (k : JobKind) (r : Option Range) : Job :=
  { id := 1, kind := k, origin := .a, session := 1, deliver := true, range := r, staging := none,
    verify := false, raw := none, phase := none, suspendCount := 0, busyTime := 0, dataIn := [], outcome := none }

def eraseJob : Job := aJob .eraseSector (some { base := 0x4000, length := 4096 })

/-- `eraseJob` RUNNING in a phase with some busy time. -/
def runningErase (p : Phase) (busy : Nat) : Job := { eraseJob with phase := some p, busyTime := busy }

/-- A PROGRAM of two bytes in buffer 0, RUNNING. -/
def runningProgram (p : Phase) : Job :=
  { aJob .program (some { base := 0x4010, length := 2 }) with staging := some 0, phase := some p }

/-- The descriptor of a RAW job that modifies. -/
def rawPart (modifying : Bool) : RawJob :=
  { modifying := modifying, writeEnableFirst := true, command := 0xB7, address := none, dummy := 0, dataOut := [],
    dataInCount := 1 }

def runningRaw (modifying : Bool) (p : Phase) : Job :=
  { aJob .raw none with raw := some (rawPart modifying), phase := some p }

/-- The slots of the jobs are reserved and the buffer 0 holds a PROGRAM's bytes. -/
def withJobs (js : List Job) (s : State) : State :=
  { s with jq := { s.jq with jobs := js, nextId := 2 }, linkA := { s.linkA with reserved := [1] },
           staging := s.staging.set 0 (some [0xAA, 0xBB]) }

/-- The erase RUNNING in BUSY, between two status reads, after some times. -/
def polling (waited seg busy : Nat) : State :=
  withJobs [runningErase .busy busy] (readyBut (fun q =>
    { q with state := .job, wait := .poll, waitTime := waited, segTime := seg }))

/-- A job RUNNING with one of its transactions on the port. -/
def sending (u : TransactionUse) (n : Nat) (st : FlashState) (j : Job) : State :=
  withJobs [j] (readyBut (onPort u n st))

/-- A profile with suspend enable on and the masks of R109. -/
def suspendProfile : Profile := { defaultProfile with suspendEnable := true, holdTime := 1 }

def errorProfile : Profile :=
  { defaultProfile with errorStatus := 0x70, programFail := 0x02, eraseFail := 0x20, clearStatus := 0x50 }

/-- The same state under another active profile. -/
def under (p : Profile) (s : State) : State := { s with fsq := { s.fsq with active := p } }

/-- An entry that waits, bound to no way. -/
def waitingFill (line : Nat) : Fill := { line := line, way := none, doomed := false, phase := .waiting, waiters := [] }

/-- The same state with entries in the Fill Table. -/
def withFills (fs : List Fill) (s : State) : State := { s with fills := fs }

/-- The line 0x4000 VALID in way 2 of set 0. -/
def cached (pinned : Bool) (s : State) : State :=
  s.updSet 0 (fun c => c.putLine 2 (.valid 2 pinned (List.replicate 64 0x5A)))

/-- A READ's or PIN's payload. -/
def rangePayload (base len : Nat) : List Byte := leBytes 4 base ++ leBytes 2 len

/-- An UNPIN's or INVALIDATE's payload. -/
def longRange (base len : Nat) : List Byte := leBytes 4 base ++ leBytes 4 len

/-! ### Single steps -/

/-- What a test reads of a next state. -/
def after {α : Type} (o : Host.Outcome State Fault Refusal) (f : State → α) : Option α :=
  match o with
  | .next t => some (f t)
  | _ => none

/-- R118: the settle wait ends with 0x66 on the port. -/
theorem test_settle_end : after (exec .startupSettleEnd State.reset) (fun t => (t.fsq.port, t.fsq.wait)) =
    some (some (oneByte .startupReset1 0x66), .none) := by decide +kernel

/-- R119, R120: an absent device. -/
theorem test_startup_absent :
    after (exec (.startupIdReadEnd ⟨0xFF, 0xFF, 0xFF⟩)
      { State.reset with fsq := onPort .startupIdRead 3 .starting State.reset.fsq })
      (fun t => (t.fsq.state, t.fsq.cause, t.linkB.holder.map Message.payload)) =
    some (.faulted, .absent, some [1, 7, 1, 0xFF, 0xFF, 0xFF, 0]) := by decide +kernel

/-- R164: the OPEN RECORD. -/
theorem test_open : after (exec (.openSession .a 9 []) { ready with linkA := .reset })
      (fun t => (t.linkA.session, t.linkA.fifo)) =
    some (1, [⟨0x81, 9, .ok, [0x40, 0x22, 1, 1, 0, 64, 12, 8, 8, 4, 1, 0]⟩]) := by decide +kernel

theorem test_nop : after (exec (.nop .b 7 [1, 2, 3]) ready) (fun t => t.linkB.fifo) =
    some [⟨0x83, 7, .ok, [1, 2, 3]⟩] := by decide +kernel

/-- R5: a hit of three bytes in the middle of a line, and the move to the front. -/
theorem test_read_hit : after (exec (.read .a 4 (rangePayload 0x4010 3)) (cached false ready))
      (fun t => (t.linkA.fifo, (t.set 0).recency, t.counters.lookupHit)) =
    some ([⟨0x90, 4, .ok, [0x5A, 0x5A, 0x5A]⟩], [2, 0, 1, 3], 1) := by
  decide +kernel

/-- R6, R7, R102: a miss takes way 3 and begins the line read, address most significant byte first. -/
theorem test_read_miss : after (exec (.read .a 4 (rangePayload 0x4050 3)) ready)
      (fun t => (t.fsq.port, (t.set 1).ways[3], t.fills.map Fill.phase)) =
    some (some ⟨.fillRead 0x4040, 0x03, [0x00, 0x40, 0x40], [], 0, 64, 1⟩, .filling 2, [.transfer]) := by
  decide +kernel

/-- R12: a PIN that misses leaves a claim. -/
theorem test_pin_miss : after (exec (.pin .a 4 (rangePayload 0x4050 3)) ready)
      (fun t => ((t.set 1).claims, t.records.length)) = some (1, 1) := by decide +kernel

theorem test_unpin : after (exec (.unpin .a 4 (longRange 0 0x8000)) (cached true ready))
      (fun t => (t.linkA.fifo.map Message.payload, (t.set 0).ways[2].pinned)) =
    some ([[1, 0]], false) := by decide +kernel

/-- R17: a pinned line is skipped and counted. -/
theorem test_invalidate_pinned : after (exec (.invalidate .a 4 (longRange 0 0x8000)) (cached true ready))
      (fun t => t.linkA.fifo.map Message.payload) = some [[0, 0, 1, 0, 0]] := by decide +kernel

/-- R13, R4: an unpinned line goes to the back. -/
theorem test_invalidate : after (exec (.invalidate .a 4 (longRange 0 0x8000)) (cached false ready))
      (fun t => (t.linkA.fifo.map Message.payload, (t.set 0).recency)) =
    some ([[1, 0, 0, 0, 0]], [0, 1, 3, 2]) := by decide +kernel

theorem test_probe_line : after (exec (.probeLine .a 4 [0, 2]) (cached true ready))
      (fun t => t.linkA.fifo.map Message.payload) =
    some [[2, 2, 0, 0x00, 0x40, 0x00, 0x00, 1, 2, 0, 0]] := by decide +kernel

/-- R66, R104: an accepted PROGRAM is answered with id 1 and begins with the write-enable. -/
theorem test_program : after (exec (.program .a 4 (leBytes 4 0x4010 ++ [0, 0xAA, 0xBB])) ready)
      (fun t => (t.linkA.fifo.map Message.payload, t.fsq.port, t.staging[(0 : Fin 4)])) =
    some ([[1, 0]], some (oneByte .writeEnable 0x06), some [0xAA, 0xBB]) := by decide +kernel

/-- R63: an address that is no sector's first. -/
theorem test_erase_misaligned : after (exec (.erase .a 4 (leBytes 4 0x4010 ++ [0])) ready)
      (fun t => t.linkA.fifo.map Message.status) = some [.badAlign] := by decide +kernel

theorem test_query_unknown : after (exec (.queryJob .a 4 [5, 0]) ready) (fun t => t.linkA.fifo) =
    some [⟨0xA4, 4, .unknownJob, [5, 0]⟩] := by decide +kernel

/-- R115: applied and answered at once in READY with nothing to do. -/
theorem test_set_profile : after (exec (.setProfile .a 4 (profileBytes suspendProfile)) ready)
      (fun t => (t.fsq.active, t.linkA.fifo.map Message.status)) = some (suspendProfile, [.ok]) := by
  decide +kernel

theorem test_protect : after (exec (.protect .a 4 (longRange 0x1000 0x1000 ++ [1, 1])) ready)
      (fun t => (t.protection[(0 : Fin 8)], t.linkA.fifo.map Message.payload)) =
    some (some ⟨0x1000, 0x1000, .noErase, true⟩, [[0]]) := by decide +kernel

theorem test_unprotect_empty : after (exec (.unprotect .a 4 [7]) ready)
      (fun t => t.linkA.fifo.map (fun m => (m.status, m.payload))) = some [(.badField, [7])] := by decide +kernel

/-- R159: a CRC reject carries the running count. -/
theorem test_frame_reject : after (exec (.frameReject .a .crc) ready) (fun t => t.linkA.fifo) =
    some [⟨0xF2, 0, .ok, [1, 1, 0, 0, 0]⟩] := by decide +kernel

/-- A NOP frame of 8 bytes, brought in with some of them, or all, on link A. -/
def partly (n : Nat) (s : State) : Host.Outcome State Fault Refusal := exec (.nop (.aUpTo n) 7 [9]) s

/-- Two commands, one after the other. -/
def andThen (o : Host.Outcome State Fault Refusal) (c : Instr) : Host.Outcome State Fault Refusal :=
  match o with
  | .next t => exec c t
  | x => x

/-- R155: RECEIVING byte by byte, RDY_A low while the whole frame waits, taken at the rise. -/
theorem test_frame_write_in_parts :
    ([0, 1, 7, 8].map (fun n => after (partly n ready) (fun t => (t.linkA.receiver, t.linkA.buffer.length, t.rdyA)))) =
      [some (.idle, 0, true), some (.receiving, 1, true), some (.receiving, 7, true), some (.receiving, 8, false)] ∧
    ([0, 1, 7, 8].map (fun n => after (andThen (partly n ready) (.nop .a 7 [9])) (fun t => t.linkA.fifo))) =
      List.replicate 4 (some [⟨0x83, 7, .ok, [9]⟩]) ∧
    after (andThen (partly 7 ready) (.frameReject .a .truncated)) (fun t => t.linkA.framesRejected) = some 1 := by
  decide +kernel

/-- R155: an overrun is counted at the rise, though the link is ready by then. -/
theorem test_overrun_counts_at_the_rise :
    (after (partly 3 State.reset) (fun t => t.linkA.overruns)) = some 0 ∧
    (match partly 3 State.reset with
      | .next t => after (exec .linkAOverrun { t with fsq := ready.fsq }) (fun u => (u.linkA.overruns, u.rdyA))
      | _ => none) = some (1, true) := by decide +kernel

/-- R154: the status byte is that of the fall, with bit 1 clear though a message is then chosen. -/
theorem test_status_byte_of_the_fall :
    (match exec (.fetch .fall) ready with
      | .next t => after (exec (.fetch .select) { t with linkA := { t.linkA with holder := some ⟨0xF3, 0, .ok, []⟩ } })
          (fun u => (u.spi.sdo, u.spi.transaction, u.sdoDriven))
      | _ => none) =
    some ([0x05], .fetching (some (⟨0xF3, 0, .ok, []⟩, .holder)) false 0, true) := by decide +kernel

/-- R167, R168: a frame write that a RESET_PART on link B meets has no effect; so has a fetch begun under RST_N. -/
theorem test_reset_drops_link_a_transactions :
    (match andThen (partly 5 ready) (.resetPart .b 1 []) with
      | .next t => after (exec (.nop .a 7 [9]) t) (fun u => (u.linkA, u.spi))
      | _ => none) = some (.reset, { transaction := .none, sdo := [0x05] }) ∧
    after (andThen (andThen (andThen (exec .pinResetAssert ready) (.fetch .select)) (.pinResetRelease 0 0))
      (.fetch (.finish 3))) (fun t => (t.spi.transaction, t.linkA.overruns)) = some (.none, 0) := by decide +kernel

/-- R158: nothing is begun while CTS_B_N is deasserted. -/
theorem test_cts :
    let s : State := { ready with linkB := { openLink with fifo := [⟨0x83, 0, .ok, []⟩] } }
    ([false, true].map (fun c => after (exec (.linkBTransmitBegin c) s) (fun t => (t.pins.cts, t.uart.tx.isSome)))) =
      [some (false, false), some (true, true)] := by decide +kernel

/-- R108: the mask reads set, the next read is 20 us away. -/
theorem test_status_read_busy :
    after (exec (.statusReadEnd 0x01) (sending .statusRead 1 .job (runningErase .busy 0)))
      (fun t => (t.fsq.port, t.fsq.wait)) = some (none, .poll) := by decide +kernel

/-- R69, R71: the erase ends OK with its JOB_DONE. -/
theorem test_status_read_idle :
    after (exec (.statusReadEnd 0x00) (sending .statusRead 1 .job (runningErase .busy 300)))
      (fun t => (t.jq.jobs, t.linkA.fifo, t.counters.jobOk, t.fsq.state)) =
    some ([], [⟨0xF1, 0, .ok, [1, 0, 2, 0, 0x2C, 1, 0, 0, 0]⟩], 1, .ready) := by
  decide +kernel

/-- R124: at 1 ms of segment time, with a fill waiting. -/
theorem test_hold_time :
    after (exec .holdTimeExpiry (withFills [waitingFill 0x8000] (under suspendProfile (polling 5 990 990))))
      (fun t => (t.fsq.state, t.fsq.port, t.jq.jobs.map (fun j => j.busyTime))) =
    some (.suspending, some (oneByte .suspendCommand 0x75), [1000]) := by decide +kernel

/-- A command that names an event which cannot arise. -/
theorem test_impossible_event : exec .resumeEnd ready = .fault .noSuchTransaction ∧
    exec .pollIntervalExpiry ready = .fault .timerNotRunning := ⟨by rfl, by rfl⟩

/-- After reset with FSQ changed. -/
def starting (f : Fsq → Fsq) : State := { State.reset with fsq := f State.reset.fsq }

/-! ### Witnesses: states and operands that meet the hypotheses of the statements

One theorem for each obligation with hypotheses, named after it; where a statement has several clauses, each clause is
met at the ends of its range. -/

theorem test_meets_StepRunsFrontCommand : ({ ready with pending := [.resumeEnd, .clearStatusEnd] } : State).pending =
    .resumeEnd :: [.clearStatusEnd] := rfl

theorem test_meets_IdleStepOnlyPassesTime : State.reset.pending = [] ∧ State.reset.canPass 1 = true ∧
    (starting (fun q => { q with waitTime := 5000 })).canPass 1 = false := by decide +kernel

/-- The same state with a link A transaction in progress. -/
def onSpi (x : SpiTransaction) (sdo : List Byte) (s : State) : State := { s with spi := { transaction := x, sdo := sdo } }

/-- Link A in reception of a frame write's bytes. -/
def writingA (bytes : List Byte) (s : State) : State :=
  { onSpi .writing [0x05] s with linkA := { s.linkA with receiver := .receiving, buffer := bytes } }

theorem test_meets_PinResetClearsAndRestarts :
    let s : State := { ready with pins := { ready.pins with rstAsserted := true } }
    s.pins.rstAsserted = true ∧ s.spi.transaction = .none ∧
    (onSpi .ignored [] ready).spi.transaction = .ignored := ⟨rfl, rfl, rfl⟩

/-- FSQ READY with both links CLOSED. -/
def closed : State := { ready with linkA := .reset, linkB := .reset }

theorem test_meets_ResetPartKeepsLockedEntries :
    ([ready, closed, onSpi (.selected 5) [] ready].all (fun s =>
      s.takesRequest .resetPart .a 1 [] && s.takesRequest .resetPart .b 1 [])) = true ∧
    (writingA [0x5E, 2, 0] ready).takesRequest .resetPart .a 1 [] = true ∧
    (writingA [0x5E, 3] ready).takesRequest .resetPart .b 1 [] = true := by decide +kernel

/-- Start-up between two status reads, some us after the last and after the first. -/
def startPoll (waited total : Nat) : State :=
  starting (fun q => { q with wait := .startupPoll, waitTime := waited, startupTime := total })

/-- Start-up with a transaction on the port, some us after the first status read. -/
def startSends (u : TransactionUse) (total : Nat) : State :=
  starting (fun q => { onPort u 1 .starting q with wait := .none, startupTime := total })

theorem test_meets_StartupTakesItsTimes :
    ([(0, 0), (20, 20), (0, 9980), (20, 10000)].all (fun (w, t) => (startPoll w t).canPass (20 - w))) = true ∧
    ([(0, 9980), (10, 9990), (20, 10000)].all (fun (w, t) => (startPoll w t).canPass (10000 - t))) = true ∧
    ([0, 9999, 10000].all (fun t => (startSends .startupStatusRead t).portIs .startupStatusRead &&
      (startSends .startupStatusRead t).canPass (10000 - t))) = true ∧
    ([0, 4999, 5000].all (fun w =>
      (starting (fun q => { q with waitTime := w })).canPass (5000 - w))) = true ∧
    (startSends .startupReset1 0).portIs .startupReset1 = true ∧
    (startSends .startupReset2 0).portIs .startupReset2 = true := by decide +kernel

theorem test_meets_StartupIdentifies :
    ([0, 999, 1000].all (fun w =>
      (starting (fun q => { q with wait := .startupRecovery, waitTime := w })).canPass
        (defaultProfile.recoveryWait * 1000 - w))) = true ∧
    (startSends .startupIdRead 0).portIs .startupIdRead = true ∧
    (⟨0, 0, 1⟩ : FlashId) ≠ ⟨0, 0, 0⟩ ∧ (⟨0xFF, 0xFF, 0xFE⟩ : FlashId) ≠ ⟨0xFF, 0xFF, 0xFF⟩ := by decide +kernel

theorem test_meets_StartupChecksIdle :
    ([0, 9999, 10000].all (fun t => (startSends .startupStatusRead t).portIs .startupStatusRead)) = true ∧
    (startSends .startupStatusRead 0).fills = [] ∧ (startSends .startupStatusRead 0).jq.jobs = [] ∧
    (startSends .startupStatusRead 0).fsq.pendingProfile = none ∧
    (0xFE : Byte) &&& defaultProfile.busyMask = 0 ∧ (0x01 : Byte) &&& defaultProfile.busyMask ≠ 0 := by
  decide +kernel

theorem test_meets_ClosedLinkDiscardsItsRefusals :
    closed.takesRequest .nop .a 1 [] = true ∧ closed.takesRequest .read .b 1 tooLong.tail = true ∧
    (closed.link .a).isOpen = false ∧ (closed.link .b).isOpen = false := by decide +kernel

theorem test_meets_WrongSizeIsBadField :
    fixedSize .read = some 6 ∧ ready.takesRequest .read .a 1 [0, 0, 0, 0, 1] = true ∧
    ready.takesRequest .read .b 1 [0, 0, 0, 0, 1, 0, 0] = true ∧ fixedSize .openSession = some 0 ∧
    closed.takesRequest .openSession .a 1 [0] = true := by decide +kernel

theorem test_meets_UnknownKindIsAnswered :
    (∀ k : Kind, kindCode k ≠ 0x50) ∧ (∀ k : Kind, kindCode k ≠ 0x90) ∧ tooLong.tail.length ≤ 298 ∧
    ready.takes .a (requestFrame 0x50 1 tooLong.tail) = true ∧ closed.takes .b (requestFrame 0x90 1 []) = true :=
  ⟨fun k => by cases k <;> decide, fun k => by cases k <;> decide, by decide +kernel⟩

/-- Link B in reception of some bytes, some us after the last. -/
def receiving (buffer : List Byte) (idle : Nat) : State :=
  { ready with linkB := { openLink with receiver := .receiving, buffer := buffer, interByte := idle } }

theorem test_meets_FrameRejectPlacesNotice :
    ready.ready .a = true ∧ ready.spi.transaction.beforeSelector = true ∧
    ([[0x5E], [0x5E, 2], [0x5E, 1, 0], [0x5E, 0x2D, 1], [0x5E, 2, 0], [0x5E, 2, 0, 3, 1, 0],
        [0x5E, 2, 0, 3, 1, 0, 0]].map (fun bs => ((writingA bs ready).receivingA,
      [RejectReason.length, .truncated, .crc].map (fun r =>
        (after (exec (.frameReject .a r) (writingA bs ready)) (fun t => t.linkA.framesRejected)).isSome)))) =
    [(true, [true, true, true]), (true, [true, true, true]), (true, [true, false, false]),
     (true, [true, false, false]), (true, [false, true, true]), (true, [false, true, true]),
     (true, [false, false, true])] ∧
    ready.ready .b = true ∧ ready.linkB.receiver = .idle ∧ ready.canPass 2000 = true ∧
    (receiving [0x5E, 3] 0).linkB.buffer.length ≤ 2 ∧
    ([0, 1999, 2000].all (fun w => (receiving [0x5E] w).canPass (2000 - w))) = true := by decide +kernel

/-- Both links with 16 messages. -/
def full : State :=
  let m : Message := ⟨0x83, 0, .ok, []⟩
  { ready with linkA := { openLink with fifo := List.replicate 16 m },
               linkB := { openLink with fifo := List.replicate 16 m } }

theorem test_meets_UnreadyLinkOverruns :
    full.ready .a = false ∧ full.ready .b = false ∧ State.reset.ready .a = false ∧ State.reset.ready .b = false ∧
    full.pins.rstAsserted = false ∧ full.spi.transaction.beforeSelector = true ∧ full.linkB.receiver = .idle ∧
    (onSpi .writing [0] full).linkA.receiver ≠ .receiving := by decide +kernel

theorem test_meets_UnselectedTransactionShowsTheStatusByte :
    (0x5D : Byte) ≠ 0x5E ∧ (0x5D : Byte) ≠ 0xC3 ∧ ready.pins.rstAsserted = false ∧
    ready.spi.transaction = .none ∧ (onSpi (.selected 7) [] ready).spi.transaction = .selected 7 ∧
    (onSpi .ignored [7] ready).spi.transaction = .ignored := by decide +kernel

theorem test_meets_OpenOpensASession :
    closed.takesRequest .openSession .a 1 [] = true ∧ (closed.link .a).isOpen = false ∧
    ready.takesRequest .openSession .b 1 [] = true ∧ (ready.link .b).isOpen = true := by decide +kernel

/-- A record of a READ of one byte. -/
def aRecord (l : Link) (tag : Byte) (n : NeedState) : Record :=
  { link := l, session := 1, tag := tag, kind := .read, base := 0x8000, length := 1, needs := [n],
    buffer := [none], state := .active, pinnedCount := 0, status := .ok }

def withRecords (rs : List Record) (s : State) : State := { s with records := rs }

theorem test_meets_CloseEndsTheSession :
    TagsOk (withRecords [aRecord .a 1 .waitFill, aRecord .b 1 .waitFill] ready) ∧
    ready.takesRequest .closeSession .a 1 [] = true ∧ (ready.link .a).isOpen = true ∧
    (let s := (readyBut (fun q => { q with pendingProfile := some ⟨defaultProfile, .a, 1, 3, false⟩ })).updSet 0
       (fun c => { c with claims := 2 })
     after (exec (.closeSession .a 1 []) (withRecords [{ aRecord .a 1 .waitFill with kind := .pin, buffer := [] }] s))
       (fun t => ((t.set 0).claims, t.fsq.pendingProfile.map PendingProfile.muted))) = some (1, some true) :=
  ⟨by unfold TagsOk; decide +kernel, by decide +kernel, rfl, by decide +kernel⟩

theorem test_meets_NopEchoesItsPayload :
    ([0, 16, 17, 298].all (fun n => ready.takesRequest .nop .a 1 (List.replicate n 7))) = true := by decide +kernel

theorem test_meets_GetStatusReportsThePart :
    ready.takesRequest .getStatus .a 1 [] = true ∧ ready.takesRequest .getStatus .b 1 [] = true := by decide +kernel

theorem test_meets_GetStatsReportsAndClears :
    ([0, 1, 2].all (fun f => ready.takesRequest .getStats .a 1 [f])) = true := by decide +kernel

/-- The status of the last message placed on link A. -/
def lastStatus (o : Host.Outcome State Fault Refusal) : Option Status :=
  (after o (fun t => t.linkA.fifo.getLast?.map Message.status)).bind (fun x => x)

/-- 12 records of link A. -/
def twelve : List Record := ([0, 1, 2, 3, 4, 5, 6, 7, 8, 9, 10, 11] : List Byte).map (fun n => aRecord .a n .waitFill)

theorem test_meets_ReadIsChecked :
    ([[0], rangePayload 0 0, rangePayload 0 257, rangePayload 0xFFFFF 2, rangePayload 0xFFFFF 1].map
      (fun p => (ready.takesRequest .read .a 4 p, lastStatus (exec (.read .a 4 p) ready)))) =
    [(true, some .badField), (true, some .badLength), (true, some .badLength), (true, some .outOfRange),
     (true, none)] ∧
    ((([4, 12] : List Byte).map
      (fun g => lastStatus (exec (.read .a g (rangePayload 0 1)) (withRecords twelve ready)))) =
      [some .tagInUse, some .busy]) ∧
    after (exec (.read .a 4 (rangePayload 0x403F 130)) ready) (fun t => t.records.map (fun x => x.needs.length)) =
      some [4] ∧
    ([cached false ready, { ready with fsq := { ready.fsq with state := .faulted } }].map (fun s =>
      lastStatus (exec (.read .a 4 (rangePayload 0x4000 64)) s))) = [some .ok, some .flashFault] := by decide +kernel

/-- A PIN in progress of the line 0x8000. -/
def pinning : State := withRecords [{ aRecord .b 1 .waitFill with kind := .pin, buffer := [] }] ready

theorem test_meets_PinIsChecked :
    ([rangePayload 0 0, rangePayload 0 8193, rangePayload 0xFF000 8192, rangePayload 0 8192].map
      (fun p => (ready.takesRequest .pin .a 4 p, lastStatus (exec (.pin .a 4 p) ready)))) =
    [(true, some .badLength), (true, some .badLength), (true, some .outOfRange), (true, none)] ∧
    lastStatus (exec (.pin .a 4 (rangePayload 0x4FFF 1)) (withJobs [eraseJob] ready)) = some .rangeHeld ∧
    lastStatus (exec (.pin .a 4 (rangePayload 0x803F 1)) pinning) = some .pinInProgress ∧
    lastStatus (exec (.pin .a 4 (rangePayload 0 1)) (ready.updSet 0 (fun c => { c with claims := 3 }))) =
      some .pinLimit ∧
    after (exec (.pin .a 4 (rangePayload 0 8192)) busyPort) (fun t => t.records.map (fun x => x.needs.length)) =
      some [128] ∧
    lastStatus (exec (.pin .a 4 (rangePayload 0x4000 64)) (cached false ready)) = some .ok := by decide +kernel

theorem test_meets_ReadOverAHoldParks :
    let s := withJobs [eraseJob] ready
    s.takesRequest .read .a 1 (rangePayload 0x4FFF 1) = true ∧
    firstFailure (readChecks ⟨.a, 1, 1, rangePayload 0x4FFF 1⟩ s) = none ∧
    s.overlapsHold { base := field (rangePayload 0x4FFF 1) 0 4, length := field (rangePayload 0x4FFF 1) 4 2 } = true ∧
    s.overlapsHold { base := 0x5000, length := 1 } = false := by decide +kernel

theorem waitersOk_of_no_fills {s : State} (h : s.fills = []) : WaitersOk s := by
  intro f hf
  simp [h] at hf

theorem test_meets_ReadHitIsAnsweredAtOnce :
    WaitersOk (cached false ready) ∧ plainRead .a 1 (rangePayload 0x403F 1) (cached false ready) = true ∧
    plainRead .b 1 (rangePayload 0x4000 64) (cached false ready) = true ∧
    ((cached false ready).set (setIndex 0x4000)).hit (cacheTag 0x4000) = some 2 :=
  ⟨waitersOk_of_no_fills rfl, by decide +kernel⟩

/-- A set with every way pinned or FILLING: no victim (R6). -/
def noVictim (s : State) : State :=
  s.updSet 1 (fun c => { c with ways := #v[.valid 9 true [], .valid 8 true [], .valid 7 true [], .filling 6] })

/-- `ready` with a QUEUED job as head and a value of the burst counter. -/
def burstOf (n : Nat) : State := withJobs [eraseJob] (readyBut (fun q => { q with burst := n }))

theorem test_meets_ReadMissCreatesAnEntry :
    ([busyPort, noVictim busyPort, ready, burstOf 0, burstOf 7, burstOf 8].all (fun s =>
      plainRead .a 1 (rangePayload 0x8040 64) s && ((s.set (setIndex 0x8040)).hit (cacheTag 0x8040)).isNone &&
      s.fsq.state ≠ .faulted && s.running.isNone && s.fsq.pendingProfile.isNone)) = true ∧
    (busyPort.set 1).victim = some 3 ∧ ((noVictim busyPort).set 1).victim = none ∧
    busyPort.fills.length < 8 ∧ (∀ r ∈ busyPort.records, NeedState.waitSlot ∉ r.needs) ∧
    ([ready, burstOf 0, burstOf 7, burstOf 8].map (fun s =>
      after (exec (.read .a 1 (rangePayload 0x8040 64)) s) (fun t => (t.fsq.state, t.fsq.burst)))) =
    [some (.reading, 0), some (.reading, 1), some (.reading, 8), some (.job, 0)] := by decide +kernel

/-- 8 entries for other lines. -/
def eightFills : List Fill :=
  [0x8000, 0x8040, 0x8080, 0x80C0, 0x8100, 0x8140, 0x8180, 0x81C0].map waitingFill

theorem waitersOk_of_none {s : State} (h : ∀ f ∈ s.fills, f.waiters = []) : WaitersOk s := by
  intro f hf w hw
  simp [h f hf] at hw

theorem test_meets_ReadMissAttachesWaitsOrFails :
    ([readyBut (fun q => { q with state := .faulted }), withFills [waitingFill 0x4040] busyPort,
      withFills eightFills busyPort].all (fun s => plainRead .a 1 (rangePayload 0x4041 1) s &&
      ((s.set (setIndex 0x4041)).hit (cacheTag 0x4041)).isNone)) = true ∧
    WaitersOk (withFills [waitingFill 0x4040] busyPort) ∧ WaitersOk (withFills eightFills busyPort) ∧
    8 ≤ eightFills.length :=
  ⟨by decide +kernel, waitersOk_of_none (by decide +kernel), waitersOk_of_none (by decide +kernel), by decide⟩

theorem test_meets_PinOfOneLine :
    ([cached false ready, cached true ready, busyPort].all (fun s =>
      s.takesRequest .pin .a 1 (rangePayload 0x4000 64) &&
      (firstFailure (pinChecks ⟨.a, 1, 1, rangePayload 0x4000 64⟩ s)).isNone)) = true ∧
    WaitersOk (cached false ready) ∧ (busyPort.set 0).hit 2 = none ∧ (busyPort.set 0).victim = some 3 :=
  ⟨by decide +kernel, waitersOk_of_no_fills rfl, by decide +kernel, by decide +kernel⟩

theorem test_meets_UnpinClearsPinnedFlags :
    ([longRange 0 0, longRange 0x100000 1, longRange 0 0x100000].map
      (fun p => (ready.takesRequest .unpin .a 4 p, lastStatus (exec (.unpin .a 4 p) ready)))) =
    [(true, some .badLength), (true, some .outOfRange), (true, some .ok)] ∧
    lastStatus (exec (.unpin .a 4 (longRange 0x803F 1)) pinning) = some .pinInProgress := by decide +kernel

theorem recencyOk_ready : RecencyOk ready := by unfold RecencyOk CacheSet.recencyOk; decide +kernel

theorem test_meets_InvalidateDiscardsAndDooms : RecencyOk ready ∧
    ([longRange 0 0, longRange 0x100000 1, longRange 0 0x100000].map
      (fun p => (ready.takesRequest .invalidate .a 4 p, lastStatus (exec (.invalidate .a 4 p) ready)))) =
    [(true, some .badLength), (true, some .outOfRange), (true, some .ok)] :=
  ⟨recencyOk_ready, by decide +kernel⟩

theorem test_meets_ProbeLineReportsTheWay :
    ([[127, 3], [128, 0], [0, 4]].map
      (fun p => (ready.takesRequest .probeLine .a 4 p, lastStatus (exec (.probeLine .a 4 p) ready)))) =
    [(true, some .ok), (true, some .badField), (true, some .badField)] := by decide +kernel

/-- The three job requests, well formed. -/
def programPayload : List Byte := leBytes 4 0x4010 ++ [1, 0xAA, 0xBB]
def erasePayload : List Byte := leBytes 4 0x4000 ++ [0]
def rawPayload (wef : Byte) : List Byte := [1, wef, 0xB7, 0] ++ leBytes 4 0 ++ [0, 0, 1]

/-- The request passes every check as the job it asks for. -/
def passes (k : Kind) (p : List Byte) (s : State) : Bool :=
  match jobAsked k p s with
  | some (d, _) => jobPasses k .a 1 p d s
  | none => false

theorem test_meets_AcceptedJobIsQueued : RecencyOk ready ∧ busyPort.fsq.port.isSome = true ∧
    ([busyPort, withJobs [eraseJob] ready].all (fun s => passes .program programPayload s &&
      passes .erase erasePayload s && passes .raw (rawPayload 0) s && passes .raw (rawPayload 1) s)) = true :=
  ⟨recencyOk_ready, by decide +kernel⟩

theorem test_meets_AcceptedJobStartsOnAnIdlePort : RecencyOk ready ∧
    (passes .program programPayload ready && passes .erase erasePayload ready && passes .raw (rawPayload 0) ready &&
      passes .raw (rawPayload 1) ready) = true ∧
    ready.jq.jobs = [] ∧ ready.fsq.state = .ready ∧ ready.fsq.port = none ∧ ready.fsq.pendingProfile = none ∧
    ready.fills = [] :=
  ⟨recencyOk_ready, by decide +kernel⟩

/-- A PROGRAM's payload. -/
def programOf (a : Nat) (flags : Byte) (n : Nat) : List Byte := leBytes 4 a ++ [flags] ++ List.replicate n 0xAA

/-- A table that forbids modifying one sector. -/
def guarded (m : ProtectMode) : State :=
  { ready with protection := ready.protection.set 3 (some ⟨0x4000, 4096, m, false⟩) }

theorem test_meets_ProgramIsChecked :
    ([[0, 0, 0, 0], programOf 0 2 1, programOf 0 0 0, programOf 0 0 257, programOf 0xFFFFF 0 2, programOf 0xFF 0 2,
      programOf 0 1 256].map
      (fun p => (ready.takesRequest .program .a 4 p, lastStatus (exec (.program .a 4 p) ready)))) =
    [(true, some .badField), (true, some .badField), (true, some .badLength), (true, some .badLength),
     (true, some .outOfRange), (true, some .pageCross), (true, some .ok)] ∧
    ([readyBut (fun q => { q with state := .faulted }), guarded .noModify, cached true ready,
      withJobs (List.replicate 8 eraseJob) ready, { ready with linkA := { openLink with reserved := [1, 1, 1, 1, 1,
        1, 1, 1, 1, 1, 1, 1, 1, 1, 1] } }, { ready with staging := Vector.replicate 4 (some []) },
      guarded .noErase].map
      (fun s => lastStatus (exec (.program .a 4 (programOf 0x4000 0 1)) s))) =
    [some .flashFault, some .protectedRange, some .rangePinned, some .queueFull, some .replySpace, some .noBuffer,
     some .ok] := by decide +kernel

/-- The line 0x8000 pinned; link A with one slot FREE; with two. -/
def pinned8000 : State := ready.updSet 0 (fun c => c.putLine 1 (.valid 4 true (List.replicate 64 0)))
def oneSlot : State := { ready with linkA := { openLink with reserved := List.replicate 15 1 } }
def twoSlots : State := { ready with linkA := { openLink with reserved := List.replicate 14 1 } }

theorem test_meets_EraseAndRawAreChecked :
    ([leBytes 4 0 ++ [2], leBytes 4 0x100000 ++ [0], leBytes 4 0xFFF ++ [0], leBytes 4 0x1000 ++ [1],
      leBytes 4 0xFF000 ++ [0]].map
      (fun p => (ready.takesRequest .erase .a 4 p, lastStatus (exec (.erase .a 4 p) ready)))) =
    [(true, some .badField), (true, some .outOfRange), (true, some .badAlign), (true, some .badAlign),
     (true, some .ok)] ∧
    lastStatus (exec (.erase .a 4 erasePayload) (guarded .noErase)) = some .protectedRange ∧
    lastStatus (exec (.raw .a 4 (rawPayload 0)) (guarded .noErase)) = some .protectedRange ∧
    ([cached true ready, pinned8000, withJobs (List.replicate 8 eraseJob) ready, oneSlot, twoSlots].map (fun s =>
      (lastStatus (exec (.erase .a 4 erasePayload) s), lastStatus (exec (.raw .a 4 (rawPayload 0)) s),
        lastStatus (exec (.raw .a 4 [0, 0, 0x9F, 0, 0, 0, 0, 0, 0, 0, 3]) s)))) =
    [(some .rangePinned, some .rangePinned, some .ok), (some .ok, some .rangePinned, some .ok),
     (some .queueFull, some .queueFull, some .queueFull), (some .replySpace, some .replySpace, some .replySpace),
     (some .ok, some .ok, some .ok)] ∧
    ([[1], [0, 1, 0, 0, 0, 0, 0, 0, 0, 0, 0], [0, 0, 0, 0, 0, 0, 0, 0, 16, 0, 0], [0, 0, 0, 0, 0, 0, 0, 0, 15, 17, 0],
      [0, 0, 0, 0, 0, 0, 0, 0, 0, 1, 0], [0, 0, 0, 1, 0, 0, 0x10, 0, 0, 0, 0], [0, 0, 0, 1, 0xFF, 0xFF, 0xF, 0, 15, 0, 16]].map
      (fun p => (ready.takesRequest .raw .a 4 p, lastStatus (exec (.raw .a 4 p) ready)))) =
    [(true, some .badField), (true, some .badField), (true, some .badField), (true, some .badLength),
     (true, some .badField), (true, some .outOfRange), (true, some .ok)] := by decide +kernel

/-- A PARKED READ of the line 0x4000. -/
def parkedRead : Record := { aRecord .b 9 .waitRelease with base := 0x4000, state := .parked }

theorem test_meets_CancelEndsAQueuedJob :
    ([busyPort, withJobs [eraseJob] busyPort, withJobs [runningErase .busy 7] ready].map
      (fun s => (s.takesRequest .cancelJob .a 4 [1, 0], lastStatus (exec (.cancelJob .a 4 [1, 0]) s)))) =
    [(true, some .unknownJob), (true, some .ok), (true, some .jobRunning)] ∧
    eraseJob.id = (0 : Byte) ++ (1 : Byte) ∧ eraseJob.phase = none ∧ eraseJob.session ∈
      ((withJobs [eraseJob] busyPort).link eraseJob.origin).reserved ∧
    ([withJobs [eraseJob] busyPort, withJobs [eraseJob, { eraseJob with id := 2 }] busyPort,
        withJobs [eraseJob] (cached false busyPort)].map (fun s =>
      after (exec (.cancelJob .a 4 [1, 0]) (withRecords [parkedRead] s)) (fun t => t.records.map Record.state))) =
    [some [.active], some [.parked], some []] := by decide +kernel

theorem test_meets_QueryReportsAJob :
    let ended : HistoryEntry := ⟨1, .raw, .ok, 0, 9⟩
    ([withJobs [eraseJob] ready, { ready with jq := { ready.jq with history := [ended] } }, ready].map
      (fun s => (s.takesRequest .queryJob .a 4 [1, 0], lastStatus (exec (.queryJob .a 4 [1, 0]) s)))) =
    [(true, some .ok), (true, some .ok), (true, some .unknownJob)] := by decide +kernel

/-- The ranges of R96 at their ends: a place in the payload, a width and a value. -/
def profileEnds (ends : List (Nat × Nat × Nat)) : List Bool :=
  ends.map (fun (i, w, v) =>
    (parseProfile ((profileBytes defaultProfile).take i ++ leBytes w v ++
      (profileBytes defaultProfile).drop (i + w))).isSome)

theorem test_meets_SetProfileBecomesPending_inRange :
    profileEnds [(1, 1, 0), (1, 1, 15), (2, 1, 1), (2, 1, 2), (2, 1, 4), (3, 1, 2), (3, 1, 64), (9, 1, 1), (14, 1, 0),
      (14, 1, 1), (18, 1, 1), (19, 2, 20), (19, 2, 2000), (21, 1, 1), (21, 1, 50), (22, 1, 1), (22, 1, 32), (23, 1, 1),
      (23, 1, 16), (26, 1, 1), (26, 1, 5), (27, 1, 1), (27, 1, 50), (28, 2, 50), (28, 2, 2000), (30, 2, 200),
      (30, 2, 8000), (32, 2, 1), (32, 2, 500)] = List.replicate 29 true := by decide +kernel

theorem test_meets_SetProfileBecomesPending_outOfRange :
    profileEnds [(1, 1, 16), (2, 1, 0), (2, 1, 3), (2, 1, 5), (3, 1, 0), (3, 1, 3), (3, 1, 66), (9, 1, 0), (14, 1, 2),
      (18, 1, 0), (19, 2, 19), (19, 2, 2001), (21, 1, 0), (21, 1, 51), (22, 1, 0), (22, 1, 33), (23, 1, 0), (23, 1, 17),
      (26, 1, 0), (26, 1, 6), (27, 1, 0), (27, 1, 51), (28, 2, 49), (28, 2, 2001), (30, 2, 199), (30, 2, 8001),
      (32, 2, 0), (32, 2, 501)] = List.replicate 28 false := by decide +kernel

theorem test_meets_SetProfileBecomesPending :
    let p := profileBytes errorProfile
    let waits := some (⟨defaultProfile, .a, 1, 3, false⟩ : PendingProfile)
    parseProfile (p.set 2 3) = none ∧ (p.set 2 3).length = 34 ∧ parseProfile p = some errorProfile ∧
    ([ready, busyPort, readyBut (fun q => { q with state := .faulted }),
      readyBut (fun q => { q with pendingProfile := waits })].map
      (fun s => (s.takesRequest .setProfile .a 4 p, lastStatus (exec (.setProfile .a 4 p) s)))) =
    [(true, some .ok), (true, none), (true, some .flashFault), (true, some .profilePending)] := by decide +kernel

/-- One READ of link A that waits for the line 0x4040, whose read is on the port; or the same entry doomed. -/
def arriving (doomed : Bool) : State :=
  let r : Record := { aRecord .a 4 .waitFill with base := 0x407F }
  let f : Fill := { line := 0x4040, way := some 3, doomed := doomed, phase := .transfer,
                    waiters := if doomed then [] else [⟨⟨.a, 4⟩, 0⟩] }
  let s := (readyBut (onPort (.fillRead 0x4040) 64 .reading)).updSet 1 (fun c => c.putLine 3 (.filling 2))
  { s with fills := [f], records := if doomed then [] else [r], linkA := { s.linkA with reserved := [1] } }

/-- RECOVERING with a transaction on the port, or in the wait. -/
def recovering (u : TransactionUse) (time : Nat) : State :=
  readyBut (fun q => { onPort u 1 .recovering q with recoveryTime := time })
def recoveryWaits (waited time : Nat) : State :=
  readyBut (fun q => { q with state := .recovering, wait := .recovery, waitTime := waited, recoveryTime := time })

/-- The erase between two suspended-status reads. -/
def suspendWaits : State :=
  withJobs [runningErase .suspending 1000] (readyBut (fun q => { q with state := .suspending, wait := .suspendPoll }))

/-- A RESET_FLASH waits for the end of the transaction in progress. -/
def resetWaits (s : State) : State := { s with fsq := { s.fsq with resetDue := true } }

theorem test_meets_ResetFlashLeadsToRecovery :
    ([ready, busyPort, readyBut (fun q => { q with state := .faulted }),
      readyBut (fun q => { q with state := .recovering, wait := .recovery }), polling 3 3 3].map
      (fun s => (s.takesRequest .resetFlash .b 4 [], s.fsq.port.isSome, s.running.isSome))) =
    [(true, false, false), (true, true, false), (true, false, false), (true, false, false), (true, false, true)] ∧
    (suspendWaits.takesRequest .resetFlash .b 4 [] && suspendWaits.running.isSome) = true ∧
    ([(TransactionUse.statusRead, FlashState.job), (.verifyRead, .reading), (.suspendCommand, .suspending),
        (.resume, .suspended)].map (fun (u, st) =>
      let s := resetWaits (sending u 1 st (runningErase .busy 5))
      (s.portIs u, after (exec (u.endCommand [7]) s) (fun t => (t.fsq.state, t.jq.history.map HistoryEntry.outcome))))) =
      List.replicate 4 (true, some (.recovering, [.aborted])) ∧
    ([arriving true, { arriving true with fsq := { (arriving true).fsq with state := .suspended } }].map (fun s =>
      after (exec (.fillArrival (List.replicate 64 0)) (resetWaits s)) (fun t => t.fsq.state))) =
      [some .recovering, some .recovering] ∧
    ([TransactionUse.recoveryReset1, .recoveryReset2, .recoveryStatusRead, .recoveryIdRead].map (fun u =>
      (recovering u 19999).portIs u)) = List.replicate 4 true := by decide +kernel

/-- Two jobs, the first RUNNING in a status read of its busy period. -/
def twoJobs : State :=
  withJobs [runningErase .busy 5, { aJob .eraseSector (some { base := 0x6000, length := 4096 }) with id := 2 }]
    (readyBut (onPort .statusRead 1 .job))

/-- A RESET_FLASH on a link. -/
def resetOn (v : Arrival) : Instr := .resetFlash v 4 []

/-- As many steps as there are commands, each with its outcome answered by the next. -/
def runAll (cs : List Instr) (s : State) : Host.Outcome State Fault Refusal :=
  cs.foldl (fun o _ => match o with
    | .next t => step t
    | x => x) (.next { s with pending := cs })

/-- FSQ's state, the phases of the jobs and the outcomes of the ended ones. -/
def jobsSeen (t : State) : FlashState × List (Option Phase) × List Status :=
  (t.fsq.state, t.jq.jobs.map Job.phase, t.jq.history.map HistoryEntry.outcome)

/-- R112: the end first, a RESET_FLASH of the same instant ends no job; first, it aborts the RUNNING one; and one that does
not wait as the job ends finds the next one RUNNING. A byte that ends a RESET_FLASH frame counts as one. -/
theorem test_job_end_and_reset_flash :
    [runAll [.statusReadEnd 0, resetOn .b] twoJobs, runAll [resetOn .b, .statusReadEnd 0] twoJobs,
      andThen (runAll [.statusReadEnd 0] twoJobs) (resetOn .b),
      runAll [.statusReadEnd 0, .linkBByteReceived ((requestFrame (kindCode .resetFlash) 4 []).getLastD 0)]
        { twoJobs with linkB := { twoJobs.linkB with
            receiver := .receiving, buffer := (requestFrame (kindCode .resetFlash) 4 []).dropLast } }].map
      (fun o => after o jobsSeen) =
    [some (.recovering, [none], [.ok]), some (.recovering, [none], [.aborted]),
      some (.job, [some .issue], [.ok]), some (.recovering, [none], [.ok])] := by decide +kernel

theorem test_meets_reset_flash_after_job_end :
    (twoJobs.takesRequest .resetFlash .b 4 [], twoJobs.oldestWaiting.isNone, twoJobs.records.isEmpty,
      twoJobs.jobSends .statusRead (runningErase .busy 5),
      { twoJobs with pending := [resetOn .b] }.resetNext) = (true, true, true, true, some .b) := by decide +kernel

/-- A recovery ends in READY, with a QUEUED job and with a WAITING entry. -/
def recoveriesEnd : List State :=
  [withJobs [{ eraseJob with id := 2 }] (recovering .recoveryStatusRead 5),
    withFills [waitingFill 0x8000] (recovering .recoveryStatusRead 5)]

/-- R143: the end of a recovery first, the RESET_FLASH finds FSQ READY and begins another at once. -/
theorem test_recovery_end_and_reset_flash :
    recoveriesEnd.map (fun s => after (runAll [.recoveryStatusReadEnd 0, resetOn .b] s) (fun t =>
      (t.fsq.state, t.jq.jobs.map Job.phase, t.fills.map Fill.phase))) =
    [some (.recovering, [none], []), some (.recovering, [], [.waiting])] := by decide +kernel

theorem test_meets_reset_flash_after_recovery_end :
    recoveriesEnd.map (fun s => (s.takesRequest .resetFlash .b 4 [], s.portIs .recoveryStatusRead, s.fsq.probe)) =
    [(true, true, false), (true, true, false)] := by decide +kernel

/-- A SET_PROFILE of link A, and what stands of it. -/
def profileSent : Instr := .setProfile .a 4 (profileBytes suspendProfile)
def profileSeen (t : State) : Bool × Bool × List Status × List Byte :=
  (t.fsq.active = suspendProfile, t.fsq.pendingProfile.isSome, t.linkA.fifo.map Message.status, t.linkA.reserved)

/-- R143: with a RESET_FLASH of the same instant on the other link the profile is pending through the recovery, whichever is
first; one on the same link comes later, and finds it applied; so does one with another frame before it. -/
theorem test_set_profile_and_reset_flash :
    [runAll [profileSent, resetOn .b] ready, runAll [resetOn .b, profileSent] ready,
      runAll [profileSent, resetOn .a] ready, runAll [profileSent, .getProfile .a 5 [], resetOn .b] ready].map
      (fun o => after o profileSeen) =
    [some (false, true, [], [1]), some (false, true, [], [1]), some (true, false, [.ok], [1]),
      some (true, false, [.ok, .ok], [])] := by decide +kernel

theorem test_meets_reset_flash_after_set_profile :
    ready.takesRequest .resetFlash .b 4 [] = true ∧
    ready.takesRequest .setProfile .a 4 (profileBytes suspendProfile) = true ∧
    parseProfile (profileBytes suspendProfile) = some suspendProfile ∧
    ({ ready with pending := [resetOn .b] } : State).resetNextBeside .a = true := by decide +kernel

theorem test_meets_ProtectTakesTheLowestEmptySlot :
    ([longRange 0 4096 ++ [3, 0], longRange 0 4096 ++ [1, 2], longRange 0 0 ++ [1, 0], longRange 1 4096 ++ [1, 0],
      longRange 0 4097 ++ [1, 0], longRange 0xFF000 8192 ++ [1, 0], longRange 0xFF000 4096 ++ [2, 1]].map
      (fun p => (ready.takesRequest .protect .a 4 p, lastStatus (exec (.protect .a 4 p) ready)))) =
    [(true, some .badField), (true, some .badField), (true, some .badLength), (true, some .badAlign),
     (true, some .badAlign), (true, some .outOfRange), (true, some .ok)] ∧
    lastStatus (exec (.protect .a 4 (longRange 0 4096 ++ [1, 0]))
      { ready with protection := Vector.replicate 8 (some ⟨0, 4096, .noErase, true⟩) }) = some .tableFull := by
  decide +kernel

theorem test_meets_UnprotectRemovesUnlockedEntries :
    ([([3], guarded .noErase), ([7], guarded .noErase), ([8], guarded .noErase),
      ([0], { ready with protection := Vector.replicate 8 (some ⟨0, 4096, .noErase, true⟩) })].map
      (fun (p, s) => (s.takesRequest .unprotect .a 4 p, lastStatus (exec (.unprotect .a 4 p) s)))) =
    [(true, some .ok), (true, some .badField), (true, some .badField), (true, some .locked)] := by decide +kernel

theorem test_meets_GetProfileAndListProtectReport :
    ready.takesRequest .getProfile .a 4 [] = true ∧ ready.takesRequest .listProtect .b 4 [] = true := by
  decide +kernel

theorem test_meets_FetchShiftsOutOneMessage :
    (messageFrame ⟨0x83, 0, .ok, []⟩).length = 8 ∧
    ([7, 8].map (fun n => after (exec (.fetch (.whole n)) full) (fun t => t.linkA.fifo.length))) =
      [some 16, some 15] ∧
    full.spi.transaction.beforeSelector = true ∧
    ([(Source.fifo, false), (.holder, false), (.holder, true)].map (fun (src, replaced) =>
      [1, 2].map (fun n => after (exec (.fetch (.finish n)) (onSpi (.fetching (some (⟨0x83, 0, .ok, []⟩, src)) replaced 6)
        [5] { full with linkA := { full.linkA with holder := some ⟨0xF3, 0, .ok, []⟩ } }))
        (fun t => (t.linkA.fifo.length, t.linkA.holder.isSome))))) =
    [[some (16, true), some (15, true)], [some (16, true), some (16, false)], [some (16, true), some (16, true)]] := by
  decide +kernel

theorem test_meets_LinkBTransmitsOneMessage :
    let m : Message := ⟨0xF4, 0, .ok, []⟩
    full.uart.tx = none ∧ full.linkB.holder = none ∧ full.linkB.fifo.length = 16 ∧
    ready.linkB.holder = none ∧ ready.linkB.fifo = [] ∧
    ({ full with linkB := { full.linkB with holder := some m } } : State).linkB.holder = some m ∧
    ({ full with uart := { full.uart with tx := some (m, .holder) } } : State).uart.tx = some (m, .holder) := by
  decide +kernel

/-- What link B's receiver is after a byte. -/
def receiverAfter (b : Byte) (s : State) : Option Receiver :=
  after (exec (.linkBByteReceived b) s) (fun t => t.linkB.receiver)

theorem test_meets_LinkBReceiverHandlesBytes :
    ([(0x00, receiving [0x5E] 9), (1, receiving [0x5E, 0x2C] 9), (1, receiving [0x5E, 0x2D] 9),
      (0, receiving [0x5E, 2] 9), (0, receiving [0x5E, 1] 9), (9, receiving [0x5E, 2, 0, 3, 1] 9)].map
      (fun (b, s) => receiverAfter b s)) =
    [some .receiving, some .receiving, some .discarding, some .receiving, some .discarding, some .receiving] ∧
    ready.linkB.receiver = .idle ∧ (0x5D : Byte) ≠ 0x5E ∧ ready.ready .b = true ∧
    ([0, 2000].all (fun w => (receiving [0x5E] w).canPass (2000 - w))) = true := by decide +kernel

theorem test_meets_LastByteActsAsTheRequest :
    let frame := requestFrame (kindCode .nop) 1 [7]
    let s := receiving frame.dropLast 3
    s.linkB.receiver = .receiving ∧ s.linkB.buffer ++ [frame.getLast!] = frame ∧
    s.linkB.buffer ++ [frame.getLast! + 1] ≠ frame ∧ s.linkB.buffer = frame.dropLast ∧
    ready.ready .a = true ∧ ready.spi.transaction.beforeSelector = true ∧
    ([1, 3, 8].all (fun n => (writingA (frame.take n) ready).receivingA)) = true ∧ frame.length = 8 ∧
    ([[0x5E, 1, 0], [0x5E, 0x2D, 1]].all (fun bs => (writingA bs ready).receivingA && bs.length = 3)) = true ∧
    field [0x5E, 1, 0] 1 2 = 1 ∧ field [0x5E, 0x2D, 1] 1 2 = 301 := by decide +kernel

/-- An entry whose read is on the port, with one record and some more entries. -/
def arrivingFor (f : Fill) (r : Record) (more : List Fill) : State :=
  let s := readyBut (onPort (.fillRead f.line) 64 .reading)
  let s := match f.way with
    | some v => s.updSet (setIndex f.line) (fun c => c.putLine v (.filling (cacheTag f.line)))
    | none => s
  { s with fills := f :: more, records := [r], linkA := { s.linkA with reserved := [1] } }

/-- The entry of the line 0x4040 with its read on the port. -/
def entryOf (way : Option (Fin 4)) (doomed : Bool) (ws : List Waiter) : Fill :=
  { line := 0x4040, way := way, doomed := doomed, phase := .transfer, waiters := ws }

/-- A READ and a PIN of one byte, whose need is in some state. -/
def readOf (base : Nat) (n : NeedState) : Record := { aRecord .a 4 n with base := base }
def pinOf (base : Nat) (n : NeedState) : Record := { readOf base n with kind := .pin, buffer := [] }

def theWaiter : List Waiter := [⟨⟨.a, 4⟩, 0⟩]

/-- What an arrival can leave: the needs, the entries, the pinned ways and claims of set 1, the messages of link A. -/
structure ArrivalLeft where
  needs : List (List NeedState)
  lines : List Nat
  pinned : Nat
  claims : Nat
  messages : List Message
deriving DecidableEq, Repr

/-- The same after the arrival of the read in progress. -/
def arrivalLeaves (s : State) : Option ArrivalLeft :=
  after (exec (.fillArrival (List.replicate 64 0x77)) s)
    (fun t => ⟨t.records.map Record.needs, t.fills.map Fill.line, (t.set 1).pinnedWays, (t.set 1).claims, t.linkA.fifo⟩)

/-- SUSPENDED with the read of the line 0x4040 on the port, after some fills. -/
def suspendedArrival (served : Nat) (more : List Fill) : State :=
  { withJobs [runningErase .suspended 1000] (readyBut (fun q =>
      { onPort (.fillRead 0x4040) 64 .suspended q with fillsServed := served })) with
    fills := entryOf none false [] :: more }

theorem test_meets_FillArrivalEndsTheEntry_waiters :
    arrivalLeaves (arrivingFor (entryOf (some 3) false theWaiter) (pinOf 0x407F .waitFill) []) =
      some ⟨[], [], 1, 0, [⟨0x91, 4, .ok, [1, 0]⟩]⟩ ∧
    arrivalLeaves (withJobs [{ eraseJob with range := some ⟨0x4000, 4096⟩ }]
      (arrivingFor (entryOf (some 3) true theWaiter) (readOf 0x4040 .waitFill) [])) =
      some ⟨[[.waitRelease]], [], 0, 0, []⟩ ∧
    arrivalLeaves (arrivingFor (entryOf none false theWaiter) (readOf 0x407F .waitFill) []) =
      some ⟨[], [], 0, 0, [⟨0x90, 4, .ok, [0x77]⟩]⟩ ∧
    arrivalLeaves (arrivingFor (entryOf none false theWaiter) (pinOf 0x4040 .waitFill) []) =
      some ⟨[[.waitFill]], [0x4040], 0, 0, []⟩ ∧
    arrivalLeaves (noVictim (arrivingFor (entryOf none false theWaiter) (pinOf 0x4040 .waitFill) [])) =
      some ⟨[[.waitWay]], [], 3, 0, []⟩ := by decide +kernel

theorem test_meets_FillArrivalEndsTheEntry_queues :
    arrivalLeaves (arrivingFor (entryOf none false []) (readOf 0x6000 .waitSlot) (eightFills.take 7)) =
      some ⟨[[.waitFill]], (eightFills.take 7).map Fill.line ++ [0x6000], 0, 0, []⟩ ∧
    arrivalLeaves (withJobs [{ eraseJob with range := some ⟨0x6000, 4096⟩ }]
      (arrivingFor (entryOf none false []) (readOf 0x6000 .waitSlot) (eightFills.take 7))) =
      some ⟨[[.waitRelease]], (eightFills.take 7).map Fill.line, 0, 0, []⟩ ∧
    arrivalLeaves (arrivingFor (entryOf (some 3) true []) (pinOf 0x6040 .waitWay) []) =
      some ⟨[[.waitFill]], [0x6040], 0, 0, []⟩ := by decide +kernel

theorem test_meets_FillArrivalEndsTheEntry_suspended :
    ([(7, [waitingFill 0x8000]), (8, [waitingFill 0x8000]), (0, [])].map (fun (n, more) =>
      after (exec (.fillArrival (List.replicate 64 0)) (suspendedArrival n more))
        (fun t => (t.fsq.state, t.fsq.fillsServed, t.portIs .resume)))) =
    [some (.suspended, 8, false), some (.suspended, 8, true), some (.suspended, 0, true)] := by decide +kernel

theorem test_meets_FillArrivalEndsTheEntry :
    ([arriving false, arriving true].all (fun s => s.portIs (.fillRead 0x4040) && !s.fsq.resetDue &&
      s.fsq.state = .reading && s.jq.jobs.isEmpty && s.fsq.pendingProfile.isNone)) = true ∧
    after (exec (.fillArrival (List.replicate 64 0x77)) (arriving false)) (fun t => t.linkA.fifo) =
      some [⟨0x90, 4, .ok, [0x77]⟩] := by decide +kernel

theorem test_meets_IssueLeadsToBusy :
    (sending .writeEnable 0 .job (runningProgram .issue)).jobSends .writeEnable (runningProgram .issue) = true ∧
    (sending .writeEnable 0 .job (runningErase .issue 0)).jobSends .writeEnable (runningErase .issue 0) = true ∧
    (sending .writeEnable 0 .job (runningRaw true .issue)).jobSends .writeEnable (runningRaw true .issue) = true ∧
    (sending .program 0 .job (runningProgram .issue)).jobSends .program (runningProgram .issue) = true ∧
    (sending .erase 0 .job (runningErase .issue 0)).jobSends .erase (runningErase .issue 0) = true ∧
    ([true, false].all (fun m => (sending .descriptor 1 .job (runningRaw m .issue)).jobSends .descriptor
      (runningRaw m .issue) && (sending .descriptor 1 .job (runningRaw m .issue)).portTakes .descriptor 1)) = true ∧
    (sending .writeEnable 0 .job (runningProgram .issue)).fsq.port.isSome = true ∧ ready.fsq.port = none ∧
    (after (exec (.descriptorTransactionEnd [7]) (sending .descriptor 1 .job (runningRaw false .issue)))
      (fun t => (t.fsq.state, t.fsq.port))) = some (.ready, none) := by decide +kernel

theorem test_meets_BusyPollingEndsOrTimesOut :
    ([0, 399999, 400000].map (fun n => ((sending .statusRead 1 .job (runningErase .busy n)).jobSends .statusRead
      (runningErase .busy n), after (exec (.statusReadEnd 1) (sending .statusRead 1 .job (runningErase .busy n)))
        (fun t => t.fsq.state)))) =
    [(true, some .job), (true, some .job), (true, some .recovering)] ∧
    (sending .statusRead 1 .job (runningErase .busy 400000)).suspensionDue = false ∧
    (let s := sending .statusRead 1 .job (runningErase .busy 9)
     let next : Job := { eraseJob with id := 2 }
     let q := { s with jq := { s.jq with jobs := s.jq.jobs ++ [next] } }
     [s, q, withFills [waitingFill 0x8000] s, withFills [waitingFill 0x8000] q].map (fun s =>
      after (exec (.statusReadEnd 0) s) (fun t => (t.fsq.state, t.fsq.burst)))) =
    [some (.ready, 0), some (.job, 0), some (.reading, 0), some (.reading, 1)] ∧
    ([(0, 0), (20, 20), (0, 399980)].all (fun (w, n) => (polling w n n).canPass (20 - w))) = true ∧
    ([(0, 399980), (20, 400000)].all (fun (w, n) => (polling w n n).canPass (400000 - n))) = true ∧
    ([0, 400000].all (fun n => (sending .statusRead 1 .job (runningErase .busy n)).canPass (400000 - n))) = true := by
  decide +kernel

theorem test_meets_FailuresAndMismatchesEndTheJob :
    let s := under errorProfile (sending .errorStatusRead 1 .job (runningProgram .busy))
    let v := sending .verifyRead 2 .reading (runningProgram .verify)
    s.jobSends .errorStatusRead (runningProgram .busy) = true ∧ (0x02 : Byte) &&& errorProfile.programFail ≠ 0 ∧
    (0x20 : Byte) &&& errorProfile.programFail = 0 ∧
    (under errorProfile (sending .clearStatus 0 .job (runningErase .busy 0))).jobSends .clearStatus
      (runningErase .busy 0) = true ∧
    v.jobSends .verifyRead (runningProgram .verify) = true ∧ v.portTakes .verifyRead 2 = true ∧
    ([[0xAA, 0xBB], [0xAA, 0xBA]].map (fun d => after (exec (.verifyReadEnd d) v)
      (fun t => t.jq.history.map HistoryEntry.outcome))) = [some [.ok], some [.verifyMismatch]] := by decide +kernel

theorem test_meets_SuspensionBegins :
    ([(0, 980), (20, 1000), (5, 0)].all (fun (w, n) =>
      let s := withFills [waitingFill 0x8000] (under suspendProfile (polling w n n))
      s.suspensionWanted && (s.canPass (1000 - n) || n = 0))) = true ∧
    (polling 20 3000 3000).suspensionWanted = false ∧ (polling 20 3000 3000).canPass 0 = true ∧
    (withFills [waitingFill 0x8000] (under suspendProfile (withJobs [runningErase .busy 1000]
      (readyBut (fun q => { onPort .statusRead 1 .job q with segTime := 1000 }))))).suspensionDue = true ∧
    ([999, 1000].map (fun n =>
      let s := under suspendProfile (polling 5 n n)
      (plainRead .b 1 (rangePayload 0x8000 64) s, after (exec (.read .b 1 (rangePayload 0x8000 64)) s)
        (fun t => (t.fsq.state, t.phase))))) =
      [(true, some (.job, some .busy)), (true, some (.suspending, some .suspending))] := by
  decide +kernel

theorem test_meets_SuspensionRunsToItsResume :
    let j := runningErase .suspending 1000
    let waits := withJobs [j] (readyBut (fun q => { q with state := .suspending, wait := .suspendPoll }))
    j.isErase = true ∧ (sending .suspendCommand 0 .suspending j).jobSends .suspendCommand j = true ∧
    (sending .suspendedStatusRead 1 .suspending j).jobSends .suspendedStatusRead j = true ∧
    (0x80 : Byte) &&& defaultProfile.suspendedMask ≠ 0 ∧ (0x00 : Byte) &&& defaultProfile.suspendedMask = 0 ∧
    0 < defaultProfile.fillBudget ∧ waits.canPass 20 = true ∧
    ([(0, 180), (20, 200)].all (fun (w, n) => (withJobs [j] (readyBut (fun q =>
      { q with state := .suspending, wait := .suspendPoll, waitTime := w, suspendTime := n }))).canPass (200 - n))) = true ∧
    (sending .resume 0 .suspended (runningErase .suspended 1000)).jobSends .resume (runningErase .suspended 1000) =
      true := by decide +kernel

theorem test_meets_RecoveryRunsItsAttempts :
    ([TransactionUse.recoveryReset1, .recoveryReset2, .recoveryStatusRead, .recoveryIdRead].all (fun u =>
      (recovering u 19999).portIs u && !(recovering u 19999).fsq.resetDue)) = true ∧
    ([(0, 0), (0, 19000), (1000, 19999)].all (fun (w, n) => (recoveryWaits w n).canPass (1000 - w))) = true ∧
    ([(0, 19000), (999, 19999)].map (fun (w, n) => ((recoveryWaits w n).canPass (20000 - n),
      after (exec .recoveryTimeout (recoveryWaits w n)) (fun t => (t.fsq.state, t.fsq.cause))))) =
      List.replicate 2 (true, some (.faulted, .recoveryTimeout)) := by
  decide +kernel

/-- With the cache as after reset, entries of different lines that are bound to no way keep R3, R41 and R42. -/
theorem cacheOk_of_unbound {s : State} (hf : ∀ f ∈ s.fills, f.way = none ∧ f.line % 64 = 0)
    (hn : (s.fills.map Fill.line).Nodup) (hc : s.cache = Vector.replicate 128 .reset) : CacheOk s := by
  have hw : ∀ (i : Fin 128) (w : Fin 4), (s.set i).ways[w] = .invalid := by
    intro i w
    simp [State.set, hc, CacheSet.reset]
  refine ⟨fun i w v h => absurd (hw i w) h, ⟨fun f h w e => ?_, fun i w t h => ?_⟩, hn, fun f h => (hf f h).2⟩
  · rw [(hf f h).1] at e
    cases e
  · rw [hw] at h
    cases h

theorem cacheOk_of_empty {s : State} (hf : s.fills = []) (hc : s.cache = Vector.replicate 128 .reset) : CacheOk s :=
  cacheOk_of_unbound (by simp [hf]) (by simp [hf]) hc

/-- RECOVERING, attempt 2, with what the entry to FAULTED ends: a record of link A, a QUEUED erase of link A, a pending
profile and a RESET_FLASH of link B. -/
def faulting (u : TransactionUse) (time : Nat) (r : Record) (ws : List Waiter) : State :=
  let s := withJobs [eraseJob] (recovering u time)
  { s with
    fills := [{ waitingFill 0x8000 with waiters := ws }], records := [r]
    linkA := { s.linkA with reserved := [1, 1] }, linkB := { s.linkB with reserved := [1, 1] }
    fsq := { s.fsq with
      attempt := 2, pendingProfile := some ⟨defaultProfile, .b, 1, 3, false⟩,
      resetRequests := [⟨.b, 1, 9, false⟩] } }

/-- The same with a READ that waits for the arrival of an entry. -/
def faultingRead (u : TransactionUse) (time : Nat) : State :=
  faulting u time (aRecord .a 1 .waitFill) [⟨⟨.a, 1⟩, 0⟩]

/-- The tags and statuses of the messages of a link. -/
def answersOn (l : Link) (t : State) : List (Byte × Status) := (t.link l).fifo.map (fun m => (m.tag, m.status))

theorem test_meets_EntryToFaultedEndsEverything :
    (∀ u time, CacheOk (faultingRead u time)) ∧
    ([TransactionUse.recoveryReset1, .recoveryReset2, .recoveryStatusRead, .recoveryIdRead].all (fun u =>
      (faultingRead u 20000).portIs u && (faultingRead u 20000).canPass 0)) = true ∧
    ([TransactionUse.recoveryStatusRead, .recoveryIdRead].all (fun u =>
      (faultingRead u 19999).portIs u && !(faultingRead u 19999).fsq.resetDue)) = true ∧
    ([(0, 19000), (1000, 20000)].all (fun (w, n) => (recoveryWaits w n).canPass (20000 - n) &&
      (recoveryWaits w n).fsq.port.isNone)) = true :=
  ⟨fun _ _ => cacheOk_of_unbound (by intro f h; cases h with | head => exact ⟨rfl, rfl⟩ | tail _ h => cases h)
    (by unfold faultingRead faulting; simp) rfl, by decide +kernel, by decide +kernel, by decide +kernel⟩

theorem test_meets_EntryToFaultedEndsEverything_waits :
    (faultingRead .recoveryReset1 0).oneNeedWaits ∧
    (faulting .recoveryReset1 0 (aRecord .a 1 .waitSlot) []).oneNeedWaits ∧
    (faulting .recoveryReset1 0 (aRecord .a 1 .waitWay) []).oneNeedWaits ∧
    ∀ l, (faultingRead .recoveryReset1 0).faultSlotsReady l := by
  refine ⟨?_, ?_, ?_, fun l => ?_⟩
  · unfold State.oneNeedWaits; decide +kernel
  · unfold State.oneNeedWaits; decide +kernel
  · unfold State.oneNeedWaits; decide +kernel
  · cases l <;> unfold State.faultSlotsReady <;> decide +kernel

/-- What both links carry after a step, link A first, and then the outcomes in the job history. -/
def allAnswers (o : Host.Outcome State Fault Refusal) : Option (List (Byte × Status)) :=
  after o (fun t => answersOn .a t ++ answersOn .b t ++ t.jq.history.map (fun e => (0xFF, e.outcome)))

theorem test_meets_EntryToFaultedEndsEverything_answers :
    ([exec (.recoveryStatusReadEnd 1) (faultingRead .recoveryStatusRead 19999),
      exec (.recoveryIdReadEnd ⟨0xFF, 0xFF, 0xFF⟩) (faultingRead .recoveryIdRead 19999),
      exec .recoveryResetCommandEnd (faultingRead .recoveryReset2 20000)].map allAnswers) =
    List.replicate 3 (some [(1, .flashFault), (0, .flashFault), (3, .flashFault), (9, .flashFault),
      (0xFF, .flashFault)]) := by decide +kernel

theorem test_meets_EntryToFaultedEndsEverything_parked :
    let s := withRecords [parkedRead] (withJobs [eraseJob] (recovering .recoveryReset1 20000))
    let s : State := { s with linkA := { s.linkA with isOpen := false }, linkB := { s.linkB with reserved := [1] } }
    s.overlapsHold parkedRead.range = true ∧
    allAnswers (exec .recoveryResetCommandEnd s) = some [(9, .flashFault), (0xFF, .flashFault)] := by decide +kernel

/-- The invariants' premises are met where steps are taken, with a step that answers a next state. -/
theorem test_meets_StepKeeps : SlotsOk ready ∧ ReservationsOk ready ∧ RecencyOk ready ∧ QueueOk ready ∧
    BoundsOk ready ∧ CacheOk ready ∧ StartingOk ready ∧
    after (step { ready with pending := [.nop .a 1 []] }) (fun t => t.linkA.fifo.length) = some 1 := by
  refine ⟨?_, ?_, recencyOk_ready, ?_, ?_, cacheOk_of_empty rfl rfl, ?_, by decide +kernel⟩
  · unfold SlotsOk LinkState.slotsFit; decide +kernel
  · unfold ReservationsOk LinkState.reservedNow; decide +kernel
  · unfold QueueOk; decide +kernel
  · unfold BoundsOk; decide +kernel
  · exact ⟨fun h => absurd h (by decide), fun h => absurd h (by decide)⟩

theorem test_meets_StepKeepsHoldsClear : HoldOk ready :=
  ⟨by intro j hj; simp [ready, State.reset, JobQueue.reset] at hj, by intro r hr; simp [ready, State.reset] at hr,
   recencyOk_ready, by unfold TagsOk; decide +kernel, by simp [AlignedOk, ready, State.reset],
   waitersOk_of_no_fills rfl, by simp [ready, State.reset], by simp [ready, State.reset, JobQueue.reset]⟩

end Sys2Proof.Tests
end

section
/-! PROOFS. What an event can do to the Line Cache and the Fill Table, said once: every step is a chain of moves of four
kinds. R3, R4, R41 and R42 are then kept because each move keeps them. -/

namespace Sys2Proof.Machine

/-! ### The moves -/

/-- The line and the way of an entry. -/
def Fill.bond (f : Fill) : Nat × Option (Fin 4) := (f.line, f.way)

/-- The entry is bound to a way of a set. -/
def Fill.Binds (f : Fill) (i : Fin 128) (w : Fin 4) : Prop := f.way = some w ∧ setIndex f.line = i

/-- A way as before, or a VALID way that is gone or has another flag or other bytes. -/
def Line.Keeps (x y : Line) : Prop :=
  y = x ∨ (x.isValid = true ∧ (y = .invalid ∨ ∃ p d, y = .valid x.tag p d))

/-- How an event can change ways and entries: no fill begins or ends; an entry is created for an aligned line that
misses and has none, and its way, if it has one, becomes FILLING; an entry ends, and its way is INVALID or VALID; or all
is as after reset. -/
inductive CacheChange (s t : State) : Prop where
  | keep (fills : t.fills.map Fill.bond = s.fills.map Fill.bond)
      (ways : ∀ (i : Fin 128) (w : Fin 4), (s.set i).ways[w].Keeps (t.set i).ways[w])
  | create (f : Fill) (aligned : f.line % 64 = 0) (fresh : ∀ g ∈ s.fills, g.line ≠ f.line)
      (miss : (s.set (setIndex f.line)).hit (cacheTag f.line) = none) (fills : t.fills = s.fills ++ [f])
      (own : ∀ (i : Fin 128) (w : Fin 4), f.Binds i w →
        (s.set i).ways[w].isFilling = false ∧ (t.set i).ways[w] = .filling (cacheTag f.line))
      (other : ∀ (i : Fin 128) (w : Fin 4), ¬f.Binds i w → (t.set i).ways[w] = (s.set i).ways[w])
  | finish (f : Fill) (mem : f ∈ s.fills) (fills : t.fills = s.fills.filter (fun g => g.line ≠ f.line))
      (own : ∀ (i : Fin 128) (w : Fin 4), f.Binds i w →
        (t.set i).ways[w] = .invalid ∨ ∃ p d, (t.set i).ways[w] = .valid (cacheTag f.line) p d)
      (other : ∀ (i : Fin 128) (w : Fin 4), ¬f.Binds i w → (t.set i).ways[w] = (s.set i).ways[w])
  | clear (fills : t.fills = []) (sets : ∀ i : Fin 128, t.set i = .reset)

/-- One move: such a change, in which every recency list is rearranged at most. -/
structure CacheMove (s t : State) : Prop where
  recency : ∀ i : Fin 128, (s.set i).recencyOk → (t.set i).recencyOk
  change : CacheChange s t

/-- Any number of moves. -/
def CacheMoves : State → State → Prop := Relation.ReflTransGen CacheMove

theorem Line.Keeps.refl (x : Line) : x.Keeps x := .inl rfl

theorem set_eq_of_cache {s t : State} (h : t.cache = s.cache) (i : Fin 128) : t.set i = s.set i := by
  rw [State.set, h, State.set]

namespace CacheMoves

theorem refl (s : State) : CacheMoves s s := Relation.ReflTransGen.refl

theorem trans {s t u : State} (h : CacheMoves s t) (g : CacheMoves t u) : CacheMoves s u :=
  Relation.ReflTransGen.trans h g

theorem of_move {s t : State} (h : CacheMove s t) : CacheMoves s t := Relation.ReflTransGen.single h

/-- The sets stand and the entries keep their bonds. -/
theorem of_bonds {s t : State} (hc : t.cache = s.cache) (hf : t.fills.map Fill.bond = s.fills.map Fill.bond) :
    CacheMoves s t :=
  of_move ⟨fun i h => set_eq_of_cache hc i ▸ h, .keep hf fun i _ => set_eq_of_cache hc i ▸ .refl _⟩

/-- Cache and entries stand. -/
theorem of_same {s t : State} (hc : t.cache = s.cache) (hf : t.fills = s.fills) : CacheMoves s t :=
  of_bonds hc (by rw [hf])

/-- A chain that begins once something else than cache and entries has changed. -/
theorem from_same {s t u : State} (h : CacheMoves t u) (hc : t.cache = s.cache) (hf : t.fills = s.fills) :
    CacheMoves s u := (of_same hc hf).trans h

/-- A chain after which something else than cache and entries changes. -/
theorem to_same {s t u : State} (h : CacheMoves s t) (hc : u.cache = t.cache) (hf : u.fills = t.fills) :
    CacheMoves s u := h.trans (of_same hc hf)

/-- A fold of moves. -/
theorem foldl {α : Type} {f : State → α → State} (h : ∀ s x, CacheMoves s (f s x)) (xs : List α) (s : State) :
    CacheMoves s (xs.foldl f s) := by
  induction xs generalizing s with
  | nil => exact refl s
  | cons x xs ih => exact (h s x).trans (ih (f s x))

/-- R4 is kept. -/
theorem keeps_recency {s t : State} (h : CacheMoves s t) (hs : RecencyOk s) : RecencyOk t := by
  induction h with
  | refl => exact hs
  | tail _ move ih => exact fun i => move.recency i (ih i)

end CacheMoves

/-! ### Reading sets, ways and entries -/

theorem mem_wayNumbers : ∀ w : Fin 4, w ∈ [0, 1, 2, 3] := by decide

/-- A lookup that misses finds no VALID way with the tag. -/
theorem hit_eq_none {c : CacheSet} {tag : Nat} (h : c.hit tag = none) (w : Fin 4) (hv : c.ways[w].isValid = true) :
    c.ways[w].tag ≠ tag := fun e =>
  List.find?_eq_none.mp h w (mem_wayNumbers w) (by rw [CacheSet.holds, hv, e, decide_eq_true rfl]; rfl)

/-- The way that a lookup hits is VALID with the tag. -/
theorem hit_eq_some {c : CacheSet} {tag : Nat} {w : Fin 4} (h : c.hit tag = some w) :
    c.ways[w].isValid = true ∧ c.ways[w].tag = tag := by
  simpa only [CacheSet.holds, Bool.and_eq_true, decide_eq_true_eq] using List.find?_some h

/-- A way in use that is not VALID is FILLING. -/
theorem filling_of_held {x : Line} (hi : x ≠ .invalid) (hv : x.isValid = false) : x = .filling x.tag := by
  cases x with
  | invalid => exact absurd rfl hi
  | filling t => rfl
  | valid t p d => cases hv

/-- A FILLING way stays FILLING, and none becomes so. -/
theorem Line.Keeps.filling_iff {x y : Line} (h : x.Keeps y) (t : Nat) : y = .filling t ↔ x = .filling t := by
  rcases h with rfl | ⟨hv, rfl | ⟨p, d, rfl⟩⟩
  · rfl
  all_goals exact ⟨fun e => (by cases e), fun e => (by subst e; cases hv)⟩

/-- A way in use was in use, under its tag. -/
theorem Line.Keeps.held {x y : Line} (h : x.Keeps y) (hy : y ≠ .invalid) : x ≠ .invalid ∧ y.tag = x.tag := by
  rcases h with rfl | ⟨hv, rfl | ⟨p, d, rfl⟩⟩
  · exact ⟨hy, rfl⟩
  · exact absurd rfl hy
  · exact ⟨fun e => (by subst e; cases hv), rfl⟩

/-- A set whose ways in use were in use, under their tags, still has one copy of a line (R3). -/
theorem tagsOk_of_held {c d : CacheSet} (hc : c.tagsOk)
    (held : ∀ w : Fin 4, d.ways[w] ≠ .invalid → c.ways[w] ≠ .invalid ∧ d.ways[w].tag = c.ways[w].tag) : d.tagsOk := by
  intro w v hw hv e
  obtain ⟨hw, ew⟩ := held w hw
  obtain ⟨hv, ev⟩ := held v hv
  exact hc w v hw hv (by rw [← ew, ← ev, e])

/-- A line address is known by its set and its tag. -/
theorem line_eq_of_set_tag {a b : Nat} (ha : a % 64 = 0) (hb : b % 64 = 0) (hs : setIndex a = setIndex b)
    (ht : cacheTag a = cacheTag b) : a = b := by
  rw [← wayLine_of_line a ha, ← wayLine_of_line b hb, hs, ht]

/-- Entries are the same where their lines are (R42). -/
theorem fill_eq_of_line {s : State} (h : FillLinesOk s) {f g : Fill} (hf : f ∈ s.fills) (hg : g ∈ s.fills)
    (e : f.line = g.line) : f = g :=
  List.inj_on_of_nodup_map h hf hg e

/-- R41, of a way and the entry that it is bound to. -/
theorem boundOk_iff {s : State} : BoundOk s ↔
    (∀ f ∈ s.fills, ∀ (i : Fin 128) (w : Fin 4), f.Binds i w → (s.set i).ways[w] = .filling (cacheTag f.line)) ∧
    (∀ (i : Fin 128) (w : Fin 4) (t : Nat), (s.set i).ways[w] = .filling t → ∃ f ∈ s.fills, f.Binds i w) := by
  refine and_congr ⟨fun h f hf i w hb => ?_, fun h f hf w hw => h f hf _ w ⟨hw, rfl⟩⟩ .rfl
  obtain ⟨hw, rfl⟩ := hb
  exact h f hf w hw

/-! ### R3, R41 and R42 are kept -/

theorem keep_cacheOk {s t : State} (h : CacheOk s) (fills : t.fills.map Fill.bond = s.fills.map Fill.bond)
    (ways : ∀ (i : Fin 128) (w : Fin 4), (s.set i).ways[w].Keeps (t.set i).ways[w]) : CacheOk t := by
  obtain ⟨tags, bound, lines, aligned⟩ := h
  have twin : ∀ {xs ys : List Fill}, xs.map Fill.bond = ys.map Fill.bond → ∀ f ∈ xs,
      ∃ g ∈ ys, g.line = f.line ∧ g.way = f.way := by
    intro xs ys e f hf
    obtain ⟨g, hg, e⟩ := List.mem_map.mp (e ▸ List.mem_map_of_mem hf)
    exact ⟨g, hg, Prod.mk.inj e⟩
  refine ⟨fun i => tagsOk_of_held (tags i) fun w => (ways i w).held, ⟨fun f hf w hw => ?_, fun i w x hx => ?_⟩, ?_,
    fun f hf => ?_⟩
  · obtain ⟨g, hg, el, ew⟩ := twin fills f hf
    rw [(ways _ w).filling_iff, ← el]
    exact bound.1 g hg w (ew.trans hw)
  · obtain ⟨g, hg, hw, hi⟩ := bound.2 i w x (((ways i w).filling_iff x).mp hx)
    obtain ⟨f, hf, el, ew⟩ := twin fills.symm g hg
    exact ⟨f, hf, ew.trans hw, el ▸ hi⟩
  · have : t.fills.map Fill.line = s.fills.map Fill.line := by
      simpa [List.map_map, Function.comp_def, Fill.bond] using congrArg (List.map Prod.fst) fills
    rw [FillLinesOk, this]
    exact lines
  · obtain ⟨g, hg, el, -⟩ := twin fills f hf
    rw [← el]
    exact aligned g hg

/-- A line that misses and has no entry has no copy in its set (R3). -/
theorem no_copy_of_miss {s : State} (h : CacheOk s) {a : Nat} (ha : a % 64 = 0)
    (miss : (s.set (setIndex a)).hit (cacheTag a) = none) (fresh : ∀ g ∈ s.fills, g.line ≠ a) (w : Fin 4)
    (hw : (s.set (setIndex a)).ways[w] ≠ .invalid) : (s.set (setIndex a)).ways[w].tag ≠ cacheTag a := by
  obtain ⟨-, bound, -, aligned⟩ := h
  cases hv : (s.set (setIndex a)).ways[w].isValid with
  | true => exact hit_eq_none miss w hv
  | false =>
    intro e
    have filling := filling_of_held hw hv
    obtain ⟨f, hf, binds⟩ := (boundOk_iff.mp bound).2 _ w _ filling
    have own := (boundOk_iff.mp bound).1 f hf _ w binds
    have ht : cacheTag f.line = cacheTag a := (Line.filling.inj (own.symm.trans filling)).trans e
    exact fresh f hf (line_eq_of_set_tag (aligned f hf) ha binds.2 ht)

theorem create_cacheOk {s t : State} (h : CacheOk s) {f : Fill} (ha : f.line % 64 = 0)
    (fresh : ∀ g ∈ s.fills, g.line ≠ f.line) (miss : (s.set (setIndex f.line)).hit (cacheTag f.line) = none)
    (fills : t.fills = s.fills ++ [f])
    (own : ∀ (i : Fin 128) (w : Fin 4), f.Binds i w →
      (s.set i).ways[w].isFilling = false ∧ (t.set i).ways[w] = .filling (cacheTag f.line))
    (other : ∀ (i : Fin 128) (w : Fin 4), ¬f.Binds i w → (t.set i).ways[w] = (s.set i).ways[w]) : CacheOk t := by
  have no_copy := no_copy_of_miss h ha miss fresh
  obtain ⟨tags, bound, lines, aligned⟩ := h
  have mem_iff : ∀ g, g ∈ t.fills ↔ g ∈ s.fills ∨ g = f := fun g => by
    rw [fills, List.mem_append, List.mem_singleton]
  refine ⟨fun i w v hw hv e => ?_, boundOk_iff.mpr ⟨fun g hg i w binds => ?_, fun i w x hx => ?_⟩, ?_, fun g hg => ?_⟩
  · by_cases bw : f.Binds i w <;> by_cases bv : f.Binds i v
    · exact Option.some.inj (bw.1.symm.trans bv.1)
    · obtain ⟨way, rfl⟩ := bw
      rw [other _ v bv] at hv e
      rw [(own _ w ⟨way, rfl⟩).2] at e
      exact absurd e.symm (no_copy v hv)
    · obtain ⟨way, rfl⟩ := bv
      rw [other _ w bw] at hw e
      rw [(own _ v ⟨way, rfl⟩).2] at e
      exact absurd e (no_copy w hw)
    · rw [other i w bw] at hw e
      rw [other i v bv] at hv e
      exact tags i w v hw hv e
  · rcases (mem_iff g).mp hg with hg | rfl
    · have filling := (boundOk_iff.mp bound).1 g hg i w binds
      by_cases bw : f.Binds i w
      · have free := (own i w bw).1
        rw [filling] at free
        cases free
      · rw [other i w bw]; exact filling
    · exact (own i w binds).2
  · by_cases bw : f.Binds i w
    · exact ⟨f, (mem_iff f).mpr (.inr rfl), bw⟩
    · rw [other i w bw] at hx
      obtain ⟨g, hg, binds⟩ := (boundOk_iff.mp bound).2 i w x hx
      exact ⟨g, (mem_iff g).mpr (.inl hg), binds⟩
  · have apart : ∀ x ∈ s.fills.map Fill.line, x ≠ f.line := by
      rintro _ hx
      obtain ⟨g, hg, rfl⟩ := List.mem_map.mp hx
      exact fresh g hg
    rw [FillLinesOk, fills, List.map_append, List.map_singleton, ← List.concat_eq_append, List.nodup_concat]
    exact ⟨fun hx => apart _ hx rfl, lines⟩
  · rcases (mem_iff g).mp hg with hg | rfl
    · exact aligned g hg
    · exact ha

theorem finish_cacheOk {s t : State} (h : CacheOk s) {f : Fill} (mem : f ∈ s.fills)
    (fills : t.fills = s.fills.filter (fun g => g.line ≠ f.line))
    (own : ∀ (i : Fin 128) (w : Fin 4), f.Binds i w →
      (t.set i).ways[w] = .invalid ∨ ∃ p d, (t.set i).ways[w] = .valid (cacheTag f.line) p d)
    (other : ∀ (i : Fin 128) (w : Fin 4), ¬f.Binds i w → (t.set i).ways[w] = (s.set i).ways[w]) : CacheOk t := by
  obtain ⟨tags, bound, lines, aligned⟩ := h
  obtain ⟨filling_of_binds, binds_of_filling⟩ := boundOk_iff.mp bound
  have mem_iff : ∀ g, g ∈ t.fills ↔ g ∈ s.fills ∧ g ≠ f := fun g => by
    simp only [fills, List.mem_filter, decide_eq_true_eq]
    exact and_congr_right fun hg => not_congr ⟨fill_eq_of_line lines hg mem, congrArg Fill.line⟩
  refine ⟨fun i => tagsOk_of_held (tags i) fun w hw => ?_, boundOk_iff.mpr ⟨fun g hg i w binds => ?_, fun i w x hx => ?_⟩,
    ?_, fun g hg => aligned g ((mem_iff g).mp hg).1⟩
  · by_cases bw : f.Binds i w
    · rw [filling_of_binds f mem i w bw]
      rcases own i w bw with e | ⟨p, d, e⟩
      · exact absurd e hw
      · rw [e]; exact ⟨by simp, rfl⟩
    · rw [other i w bw] at hw ⊢
      exact ⟨hw, rfl⟩
  · obtain ⟨hg, ne⟩ := (mem_iff g).mp hg
    have filling := filling_of_binds g hg i w binds
    by_cases bw : f.Binds i w
    · have ht := Line.filling.inj (filling.symm.trans (filling_of_binds f mem i w bw))
      have e := line_eq_of_set_tag (aligned g hg) (aligned f mem) (binds.2.trans bw.2.symm) ht
      exact absurd (fill_eq_of_line lines hg mem e) ne
    · rw [other i w bw]; exact filling
  · by_cases bw : f.Binds i w
    · rcases own i w bw with e | ⟨p, d, e⟩ <;> cases e.symm.trans hx
    · rw [other i w bw] at hx
      obtain ⟨g, hg, binds⟩ := binds_of_filling i w x hx
      exact ⟨g, (mem_iff g).mpr ⟨hg, fun e => bw (e ▸ binds)⟩, binds⟩
  · rw [FillLinesOk, fills]
    exact lines.sublist (List.filter_sublist.map _)

theorem reset_way (w : Fin 4) : CacheSet.reset.ways[w] = .invalid := by simp [CacheSet.reset]

theorem clear_cacheOk {t : State} (fills : t.fills = []) (sets : ∀ i : Fin 128, t.set i = .reset) : CacheOk t := by
  refine ⟨fun i w v hw => ?_, ⟨by simp [fills], fun i w x hx => ?_⟩, by simp [FillLinesOk, fills],
    by simp [AlignedOk, fills]⟩
  · rw [sets i] at hw
    exact absurd (reset_way w) hw
  · rw [sets i, reset_way] at hx
    cases hx

theorem CacheChange.keeps_cacheOk {s t : State} (h : CacheChange s t) (hs : CacheOk s) : CacheOk t := by
  cases h with
  | keep fills ways => exact keep_cacheOk hs fills ways
  | create f aligned fresh miss fills own other => exact create_cacheOk hs aligned fresh miss fills own other
  | finish f mem fills own other => exact finish_cacheOk hs mem fills own other
  | clear fills sets => exact clear_cacheOk fills sets

/-- R3, R41 and R42 are kept. -/
theorem CacheMoves.keeps_cacheOk {s t : State} (h : CacheMoves s t) (hs : CacheOk s) : CacheOk t := by
  induction h with
  | refl => exact hs
  | tail _ move ih => exact move.change.keeps_cacheOk ih

end Sys2Proof.Machine
end

section
/-! PROOFS. Every operation of the read path, of the jobs and of FSQ is a chain of moves of cache and entries. -/

namespace Sys2Proof.Machine

open CacheMoves

/-! ### One set, one entry -/

theorem withPinned_keeps (x : Line) (p : Bool) : x.Keeps (x.withPinned p) := by
  cases x with
  | invalid => exact .refl _
  | filling t => exact .refl _
  | valid t q d => exact .inr ⟨rfl, .inr ⟨p, d, rfl⟩⟩

theorem putLine_keeps (c : CacheSet) (v : Fin 4) (x : Line) (h : c.ways[v].Keeps x) (w : Fin 4) :
    c.ways[w].Keeps (c.putLine v x).ways[w] := by
  by_cases e : v = w
  · subst e; rw [putLine_self]; exact h
  · rw [putLine_other c v w x e]; exact .refl _

theorem setPinned_keeps (c : CacheSet) (v : Fin 4) (p : Bool) (w : Fin 4) :
    c.ways[w].Keeps (c.setPinned v p).ways[w] := putLine_keeps c v _ (withPinned_keeps _ p) w

/-- The victim of R6 is not FILLING. -/
theorem victim_free {c : CacheSet} {v : Fin 4} (h : c.victim = some v) : c.ways[v].isFilling = false := by
  unfold CacheSet.victim at h
  split at h
  · next w hw =>
    cases h
    have : c.ways[v] = .invalid := by simpa only [decide_eq_true_eq] using List.find?_some hw
    rw [this]; rfl
  · have hv := List.find?_some h
    cases hx : c.ways[v] with
    | filling t => rw [hx] at hv; cases hv
    | _ => rfl

/-- Every way of every set keeps what it holds. -/
theorem CacheMoves.of_sets {s t : State} (hr : ∀ i : Fin 128, (s.set i).recencyOk → (t.set i).recencyOk)
    (hw : ∀ (i : Fin 128) (w : Fin 4), (s.set i).ways[w].Keeps (t.set i).ways[w])
    (hf : t.fills.map Fill.bond = s.fills.map Fill.bond) : CacheMoves s t := of_move ⟨hr, .keep hf hw⟩

theorem updSet_moves (s : State) (i : Fin 128) (f : CacheSet → CacheSet)
    (hr : (s.set i).recencyOk → (f (s.set i)).recencyOk)
    (hw : ∀ w : Fin 4, (s.set i).ways[w].Keeps (f (s.set i)).ways[w]) : CacheMoves s (s.updSet i f) := by
  refine of_sets (fun k => ?_) (fun k w => ?_) rfl <;> by_cases e : i = k
  · subst e; rw [updSet_set]; exact hr
  · rw [updSet_set_other s i k f e]; exact id
  · subst e; rw [updSet_set]; exact hw w
  · rw [updSet_set_other s i k f e]; exact .refl _

theorem updFill_moves (s : State) (a : Nat) (g : Fill → Fill) (h : ∀ f, (g f).bond = f.bond) :
    CacheMoves s (s.updFill a g) := by
  refine of_bonds rfl ?_
  simp only [State.updFill, List.map_map]
  refine List.map_congr_left fun f _ => ?_
  simp only [Function.comp]
  split
  · exact h f
  · rfl

theorem withdraw_moves (s : State) (id : RecordId) : CacheMoves s (s.withdraw id) :=
  of_bonds rfl (by simp only [State.withdraw, List.map_map]; rfl)

theorem addClaim_moves (s : State) (a : Nat) : CacheMoves s (s.addClaim a) :=
  updSet_moves s _ _ id fun _ => .refl _

theorem dropClaim_moves (s : State) (a : Nat) : CacheMoves s (s.dropClaim a) :=
  updSet_moves s _ _ id fun _ => .refl _

theorem clearRange_set (s : State) (r : Range) (i : Fin 128) : (s.clearRange r).set i = (s.set i).discard i r := by
  rw [← mapSets_set s (fun i c => c.discard i r) i]
  simp only [State.clearRange, State.set]

theorem clearRange_fills (s : State) (r : Range) : (s.clearRange r).fills = s.fills.map (Fill.doomIn r) := by
  simp only [State.clearRange, mapSets_fills]

theorem doomIn_bond (r : Range) (f : Fill) : (f.doomIn r).bond = f.bond := by
  unfold Fill.doomIn
  split <;> rfl

theorem discard_keeps (c : CacheSet) (i : Fin 128) (r : Range) (w : Fin 4) :
    c.ways[w].Keeps (c.discard i r).ways[w] := by
  rw [discard_ways]
  split
  · next h =>
    have hd := h.2
    simp only [CacheSet.discardable, Bool.and_eq_true] at hd
    exact .inr ⟨hd.1.1, .inl rfl⟩
  · exact .refl _

/-- Discarding a range and dooming its entries (R17, R81). -/
theorem clearRange_moves (s : State) (r : Range) : CacheMoves s (s.clearRange r) := by
  refine of_sets (fun i h => ?_) (fun i w => ?_) ?_
  · rw [clearRange_set]; exact discard_recencyOk h i r
  · rw [clearRange_set]; exact discard_keeps _ i r w
  · rw [clearRange_fills, List.map_map]
    exact List.map_congr_left fun f _ => doomIn_bond r f

theorem foldl_setPinned (ws : List (Fin 4)) (c : CacheSet) (p : Bool) :
    (ws.foldl (fun d w => d.setPinned w p) c).recency = c.recency ∧
    (ws.foldl (fun d w => d.setPinned w p) c).claims = c.claims ∧
    ∀ v : Fin 4, (ws.foldl (fun d w => d.setPinned w p) c).ways[v] =
      if v ∈ ws then c.ways[v].withPinned p else c.ways[v] := by
  induction ws generalizing c with
  | nil => exact ⟨rfl, rfl, fun v => by simp⟩
  | cons w ws ih =>
    obtain ⟨hr, hc, hw⟩ := ih (c.setPinned w p)
    refine ⟨hr, hc, fun v => ?_⟩
    rw [List.foldl_cons, hw]
    by_cases e : w = v
    · subst e
      have : (c.setPinned w p).ways[w] = c.ways[w].withPinned p := putLine_self _ _ _
      rw [this]
      cases c.ways[w] <;> simp [Line.withPinned]
    · have : (c.setPinned w p).ways[v] = c.ways[v] := putLine_other _ _ _ _ e
      rw [this]
      simp only [List.mem_cons, Ne.symm e, false_or]

/-- Clearing the pinned flags of a range (R15). -/
theorem unpin_moves (s : State) (r : Range) : CacheMoves s (s.mapSets (fun i c => c.unpin i r)) := by
  refine of_sets (fun i h => ?_) (fun i w => ?_) (by simp) <;> rw [mapSets_set, CacheSet.unpin]
  · rw [CacheSet.recencyOk, (foldl_setPinned _ _ false).1]; exact h
  · rw [(foldl_setPinned _ _ false).2.2]
    split
    · exact withPinned_keeps _ _
    · exact .refl _

/-! ### Lookups -/

theorem hitRead_moves (s : State) (r : Record) (i : Nat) (w : Fin 4) : CacheMoves s (s.hitRead r i w) :=
  (updSet_moves s (setIndex (r.lineOf i)) (fun c => c.toFront w) (fun h => toFront_recencyOk h w) fun _ => .refl _).to_same
    rfl rfl

theorem hitPin_moves (s : State) (r : Record) (i : Nat) (w : Fin 4) : CacheMoves s (s.hitPin r i w) := by
  refine (updSet_moves s (setIndex (r.lineOf i)) (fun c =>
    { (c.toFront w).setPinned w true with
      claims := if ((s.set (setIndex (r.lineOf i))).ways[w]).pinned then c.claims else c.claims - 1 })
    (fun h => ?_) fun v => ?_).to_same rfl rfl
  · exact toFront_recencyOk h w
  · exact setPinned_keeps ((s.set (setIndex (r.lineOf i))).toFront w) w true v

theorem failNeed_moves (s : State) (w : Waiter) : CacheMoves s (s.failNeed w) := by
  unfold State.failNeed
  split
  · exact refl s
  · split
    · exact of_same rfl rfl
    · exact (dropClaim_moves _ _).from_same rfl rfl

theorem attach_moves (s : State) (a : Nat) (w : Waiter) : CacheMoves s (s.attach a w) :=
  (updFill_moves s a (fun f => { f with waiters := f.waiters ++ [w] }) fun _ => rfl).to_same rfl rfl

theorem gather_moves (s : State) (a : Nat) : CacheMoves s (s.gather a) := foldl (fun t w => attach_moves t a w) _ s

/-- An entry as it is created, for one need (R44). -/
def freshFill (a : Nat) (v : Option (Fin 4)) (w : Waiter) : Fill :=
  { line := a, way := v, doomed := false, phase := .waiting, waiters := [w] }

/-- An entry is created for a line that misses and has none, with the victim or bypass (R44). -/
theorem createFill_moves (s : State) (a : Nat) (v : Option (Fin 4)) (w : Waiter) (ha : a % 64 = 0)
    (miss : (s.set (setIndex a)).hit (cacheTag a) = none) (fresh : ∀ g ∈ s.fills, g.line ≠ a) (u : State)
    (hv : ∀ x, v = some x → (s.set (setIndex a)).ways[x].isFilling = false ∧
      u = s.updSet (setIndex a) (fun c => c.allocate x (cacheTag a))) (hn : v = none → u = s) :
    CacheMoves s (u.createFill a v w) := by
  have hu : u.fills = s.fills := by
    cases v with
    | none => rw [hn rfl]
    | some x => rw [(hv x rfl).2]; rfl
  refine CacheMoves.trans (of_move ⟨fun i hr => ?_, ?_⟩ : CacheMoves s { u with fills := u.fills ++ [freshFill a v w] })
    ((gather_moves _ a).from_same rfl rfl)
  · show (u.set i).recencyOk
    cases v with
    | none => rw [hn rfl]; exact hr
    | some x =>
      rw [(hv x rfl).2]
      by_cases e : setIndex a = i
      · subst e; rw [updSet_set]; exact hr
      · rw [updSet_set_other _ _ _ _ e]; exact hr
  · refine .create (freshFill a v w) ha fresh miss (by rw [← hu]) (fun i x binds => ?_) (fun i x off => ?_)
    · obtain ⟨rfl, rfl⟩ := binds
      obtain ⟨free, e⟩ := hv x rfl
      refine ⟨free, ?_⟩
      show (u.set (setIndex a)).ways[x] = .filling (cacheTag a)
      rw [e, updSet_set]
      exact putLine_self _ _ _
    · show (u.set i).ways[x] = _
      cases v with
      | none => rw [hn rfl]
      | some y =>
        obtain ⟨-, rfl⟩ := hv y rfl
        by_cases e : setIndex a = i
        · subst e
          rw [updSet_set]
          exact putLine_other _ _ _ _ fun e => off ⟨congrArg some e, rfl⟩
        · rw [updSet_set_other _ _ _ _ e]

theorem missCreate_moves (s : State) (r : Record) (w : Waiter)
    (miss : (s.set (setIndex (r.lineOf w.index))).hit (cacheTag (r.lineOf w.index)) = none)
    (fresh : ∀ g ∈ s.fills, g.line ≠ r.lineOf w.index) : CacheMoves s (s.missCreate r w) := by
  unfold State.missCreate
  dsimp only
  split
  · next v hv =>
    refine createFill_moves s _ (some v) w (lineOf_aligned r _) miss fresh _ (fun x hx => ?_) (fun h => by cases h)
    cases hx
    exact ⟨victim_free hv, rfl⟩
  · split
    · refine (createFill_moves s _ none w (lineOf_aligned r _) miss fresh s (fun x hx => ?_) fun _ => rfl).to_same
        rfl rfl
      cases hx
    · exact of_same rfl rfl

theorem fill_eq_none {s : State} {a : Nat} (h : (s.fill a).isSome = false) : ∀ g ∈ s.fills, g.line ≠ a := by
  intro g hg
  have := List.find?_eq_none.mp (Option.isSome_eq_false_iff.mp h |> Option.isNone_iff_eq_none.mp) g hg
  simpa only [decide_eq_true_eq] using this

theorem missNeed_moves (s : State) (r : Record) (w : Waiter)
    (miss : (s.set (setIndex (r.lineOf w.index))).hit (cacheTag (r.lineOf w.index)) = none) :
    CacheMoves s (s.missNeed r w) := by
  unfold State.missNeed
  refine (of_same rfl rfl : CacheMoves s s.countMiss).trans ?_
  dsimp only
  split
  · exact failNeed_moves _ _
  · split
    · exact attach_moves _ _ _
    · next hf =>
      split
      · exact missCreate_moves _ r w miss (fill_eq_none (Bool.eq_false_iff.mpr hf))
      · exact of_same rfl rfl

theorem lookup_moves (s : State) (w : Waiter) : CacheMoves s (s.lookup w) := by
  unfold State.lookup
  split
  · exact refl s
  · next r _ =>
    dsimp only
    split
    · split
      · exact hitRead_moves _ _ _ _
      · exact hitPin_moves _ _ _ _
    · next miss => exact missNeed_moves s r w miss

theorem lookups_moves (s : State) (id : RecordId) (is : List Nat) : CacheMoves s (s.lookups id is) :=
  foldl (fun t _ => lookup_moves t _) is s

/-! ### Completion, parking, release -/

theorem place_moves (s : State) (l : Link) (x : Byte) (m : Message) : CacheMoves s (s.place l x m) :=
  of_same (by simp) (by simp)

theorem complete_moves (s : State) (r : Record) : CacheMoves s (s.complete r) :=
  (withdraw_moves s r.id).trans ((place_moves _ _ _ _).from_same rfl rfl)

theorem settle_moves (s : State) (id : RecordId) : CacheMoves s (s.settle id) := by
  unfold State.settle
  split
  · exact refl s
  · split
    · exact complete_moves _ _
    · exact refl s

theorem park_moves (s : State) (id : RecordId) : CacheMoves s (s.park id) :=
  (withdraw_moves _ id).from_same rfl rfl

theorem returnToLookup_moves (s : State) (w : Waiter) : CacheMoves s (s.returnToLookup w) := by
  unfold State.returnToLookup
  split
  · exact refl s
  · split
    · exact park_moves _ _
    · exact (lookup_moves s w).trans (settle_moves _ _)

theorem release_moves (s : State) (id : RecordId) : CacheMoves s (s.release id) := by
  unfold State.release
  split
  · exact refl s
  · exact ((lookups_moves _ _ _).trans (settle_moves _ _)).from_same rfl rfl

theorem reexamine_moves (s : State) : CacheMoves s s.reexamine := by
  refine foldl (fun t id => ?_) _ s
  unfold State.reexamineOne
  split
  · exact refl t
  · split
    · exact release_moves _ _
    · exact refl t

/-! ### The end of an entry -/

theorem handSlots_moves (ws : List Waiter) (s : State) : CacheMoves s (handSlots ws s) := by
  induction ws generalizing s with
  | nil => exact refl s
  | cons w ws ih =>
    unfold handSlots
    split
    · dsimp only
      split
      · exact returnToLookup_moves _ _
      · exact (returnToLookup_moves s w).trans (ih _)
    · exact ih s

theorem retryWay_moves (s : State) (w : Waiter) : CacheMoves s (s.retryWay w) := by
  unfold State.retryWay
  split
  · exact returnToLookup_moves _ _
  · exact refl s

theorem afterEnd_moves (s : State) (a : Nat) : CacheMoves s (s.afterEnd a) :=
  (handSlots_moves _ s).trans (foldl retryWay_moves _ _)

/-- An entry goes, and its way, if it has one, ends its fill (R50, steps 1 and 2). -/
theorem finish_moves {s : State} {f : Fill} (mem : f ∈ s.fills) (u : State) (hf : u.fills = s.fills)
    (hn : f.way = none → u = s)
    (hv : ∀ v, f.way = some v → ∃ g : CacheSet → CacheSet, u = s.updSet (setIndex f.line) g ∧
      ((s.set (setIndex f.line)).recencyOk → (g (s.set (setIndex f.line))).recencyOk) ∧
      ((g (s.set (setIndex f.line))).ways[v] = .invalid ∨
        ∃ p d, (g (s.set (setIndex f.line))).ways[v] = .valid (cacheTag f.line) p d) ∧
      ∀ w : Fin 4, v ≠ w → (g (s.set (setIndex f.line))).ways[w] = (s.set (setIndex f.line)).ways[w]) :
    CacheMoves s (u.removeFill f.line) := by
  have sets : ∀ i, (u.removeFill f.line).set i = u.set i := fun i => rfl
  refine of_move ⟨fun i hr => ?_, .finish f mem (by rw [← hf]; rfl) (fun i w binds => ?_) (fun i w off => ?_)⟩ <;>
    rw [sets]
  · cases hw : f.way with
    | none => rw [hn hw]; exact hr
    | some v =>
      obtain ⟨g, rfl, recency, -, -⟩ := hv v hw
      by_cases e : setIndex f.line = i
      · subst e; rw [updSet_set]; exact recency hr
      · rw [updSet_set_other _ _ _ _ e]; exact hr
  · obtain ⟨hw, rfl⟩ := binds
    obtain ⟨g, rfl, -, self, -⟩ := hv w hw
    rw [updSet_set]; exact self
  · cases hw : f.way with
    | none => rw [hn hw]
    | some v =>
      obtain ⟨g, rfl, -, -, other⟩ := hv v hw
      by_cases e : setIndex f.line = i
      · subst e
        rw [updSet_set]
        exact other w fun e => off ⟨hw.trans (congrArg some e), rfl⟩
      · rw [updSet_set_other _ _ _ _ e]

/-- An entry that ends without install (R10). -/
theorem releaseWay_moves {s : State} {f : Fill} (mem : f ∈ s.fills) :
    CacheMoves s ((s.releaseWay f).removeFill f.line) := by
  have hu : ∀ v, f.way = some v → s.releaseWay f = s.updSet (setIndex f.line) (fun c => c.drop v) := fun v hw => by
    rw [State.releaseWay, hw]
  have hn : f.way = none → s.releaseWay f = s := fun hw => by rw [State.releaseWay, hw]
  refine finish_moves mem _ ?_ hn fun v hw => ⟨fun c => c.drop v, hu v hw, fun h => drop_recencyOk h v,
    .inl (drop_self _ v), fun w => drop_other _ v w⟩
  cases hw : f.way with
  | none => rw [hn hw]
  | some v => rw [hu v hw]; rfl

/-- An entry that ends by install (R9). -/
theorem install_moves {s : State} {f : Fill} (mem : f ∈ s.fills) {v : Fin 4} (hw : f.way = some v) (p : Bool)
    (data : List Byte) :
    CacheMoves s ((s.updSet (setIndex f.line) (fun c => c.install v (cacheTag f.line) p data)).removeFill f.line) := by
  refine finish_moves mem _ rfl (fun h => by cases h.symm.trans hw) fun x hx => ?_
  cases hw.symm.trans hx
  exact ⟨_, rfl, fun h => install_recencyOk h v _ _ _, .inr ⟨p, data, putLine_self _ _ _⟩,
    fun w => putLine_other _ v w _⟩

theorem deliver_moves (s : State) (d : List Byte) (w : Waiter) : CacheMoves s (s.deliver d w) := by
  unfold State.deliver
  split
  · exact refl s
  · split
    · exact (settle_moves _ _).from_same rfl rfl
    · exact (dropClaim_moves s _).trans ((settle_moves _ _).from_same rfl rfl)

theorem deliverBypass_moves (s : State) (d : List Byte) (w : Waiter) : CacheMoves s (s.deliverBypass d w) := by
  unfold State.deliverBypass
  split
  · exact refl s
  · split
    · exact deliver_moves _ _ _
    · exact returnToLookup_moves _ _

/-- The arrival of an entry's bytes. -/
theorem arrive_moves {s : State} {f : Fill} (mem : f ∈ s.fills) (data : List Byte) : CacheMoves s (s.arrive f data) := by
  unfold State.arrive
  split
  · exact ((releaseWay_moves mem).trans (foldl returnToLookup_moves _ _)).trans (afterEnd_moves _ _)
  · dsimp only
    split
    · next v hw =>
      exact ((install_moves mem hw _ data).trans (foldl (fun t w => deliver_moves t data w) _ _)).trans
        (afterEnd_moves _ _)
    · next hw =>
      refine ((finish_moves mem s rfl (fun _ => rfl) fun v h => ?_).trans
        (foldl (fun t w => deliverBypass_moves t data w) _ _)).trans (afterEnd_moves _ _)
      cases hw.symm.trans h

theorem failWaiter_moves (s : State) (w : Waiter) : CacheMoves s (s.failWaiter w) :=
  (failNeed_moves s w).trans (settle_moves _ _)

/-- The entry that a line names is one of the table, of that line. -/
theorem fill_eq_some {s : State} {a : Nat} {f : Fill} (h : s.fill a = some f) : f ∈ s.fills ∧ f.line = a :=
  ⟨List.mem_of_find?_eq_some h, by simpa only [decide_eq_true_eq] using List.find?_some h⟩

theorem failFill_moves (s : State) (a : Nat) : CacheMoves s (s.failFill a) := by
  unfold State.failFill
  split
  · exact refl s
  · next f hf =>
    obtain ⟨mem, rfl⟩ := fill_eq_some hf
    exact ((releaseWay_moves mem).trans (foldl failWaiter_moves _ _)).trans (afterEnd_moves _ _)

theorem failIfWaiting_moves (n : NeedState) (s : State) (w : Waiter) : CacheMoves s (s.failIfWaiting n w) := by
  unfold State.failIfWaiting
  split
  · exact failWaiter_moves _ _
  · exact refl s

theorem failFills_moves (s : State) : CacheMoves s s.failFills :=
  ((foldl (failIfWaiting_moves _) _ s).trans (foldl (failIfWaiting_moves _) _ _)).trans (foldl failFill_moves _ _)

end Sys2Proof.Machine
end

section
/-! PROOFS. Every step is a chain of moves of cache and entries. -/

namespace Sys2Proof.Machine

open CacheMoves

/-! ### Jobs, arbitration, recovery -/

theorem updFsq_moves (s : State) (f : Fsq → Fsq) : CacheMoves s (s.updFsq f) := of_same rfl rfl

theorem updLink_moves (s : State) (l : Link) (f : LinkState → LinkState) : CacheMoves s (s.updLink l f) :=
  of_same (by simp) (by simp)

theorem giveNotice_moves (s : State) (l : Link) (m : Message) : CacheMoves s (s.giveNotice l m) :=
  of_same (by simp) (by simp)

theorem giveFlashState_moves (s : State) : CacheMoves s s.giveFlashState := by
  unfold State.giveFlashState
  dsimp only
  split <;> split
  · exact (giveNotice_moves s _ _).trans (giveNotice_moves _ _ _)
  · exact giveNotice_moves s _ _
  · exact giveNotice_moves s _ _
  · exact refl s

theorem giveStart_moves (s : State) : CacheMoves s s.giveStart :=
  (giveNotice_moves s _ _).trans (giveNotice_moves _ _ _)

theorem answerProfile_moves (s : State) (p : PendingProfile) (st : Status) : CacheMoves s (s.answerProfile p st) := by
  unfold State.answerProfile
  split
  · exact refl s
  · exact place_moves _ _ _ _

theorem answerResets_moves (s : State) (st : Status) : CacheMoves s (s.answerResets st) := by
  refine (foldl (fun t q => ?_) s.fsq.resetRequests s : CacheMoves s (s.fsq.resetRequests.foldl (answerReset st) s)).to_same
    rfl rfl
  unfold answerReset
  split
  · exact refl t
  · exact place_moves _ _ _ _

theorem freeStaging_cache (s : State) (j : Job) : (s.freeStaging j).cache = s.cache := by
  unfold State.freeStaging
  split <;> rfl

theorem freeStaging_fills (s : State) (j : Job) : (s.freeStaging j).fills = s.fills := by
  unfold State.freeStaging
  split <;> rfl

theorem notifyJob_moves (s : State) (j : Job) (o : Status) : CacheMoves s (s.notifyJob j o) := by
  unfold State.notifyJob
  split
  · exact place_moves _ _ _ _
  · exact refl s

/-- The end of a job: the release of PARKED records alone touches cache and entries (R69, R87). -/
theorem endJob_moves (s : State) (place : Nat) (o : Status) : CacheMoves s (s.endJob place o) := by
  unfold State.endJob
  split
  · exact refl s
  · next j _ =>
    have note : ∀ u : State, u.cache = s.cache → u.fills = s.fills →
        CacheMoves s (u.notifyJob { j with outcome := some o } o) := fun u hc hf =>
      (notifyJob_moves _ _ _).from_same hc hf
    dsimp only
    split
    · refine note _ ?_ ?_ <;> split <;> simp [freeStaging_cache, freeStaging_fills]
    · refine CacheMoves.trans (note _ ?_ ?_) (reexamine_moves _) <;> split <;>
        simp [freeStaging_cache, freeStaging_fills]

theorem endAllJobs_moves (js : List Job) (s : State) : CacheMoves s (endAllJobs js s) := by
  induction js generalizing s with
  | nil => exact refl s
  | cons j js ih => exact (endJob_moves s 0 .flashFault).trans (ih _)

theorem applyProfile_moves (s : State) : CacheMoves s s.applyProfile := by
  unfold State.applyProfile
  split
  · exact refl s
  · exact (answerProfile_moves _ _ _).from_same rfl rfl

/-- An entry's read begins: its bond stands (R46, R102). -/
theorem beginFill_moves (s : State) (f : Fill) : CacheMoves s (s.beginFill f) :=
  (updFill_moves s f.line (fun g => { g with phase := .transfer }) fun _ => rfl).to_same rfl rfl

theorem serveOldest_moves (s : State) : CacheMoves s s.serveOldest := by
  unfold State.serveOldest
  split
  · exact (beginFill_moves s _).to_same rfl rfl
  · exact refl s

theorem choose_moves (s : State) : CacheMoves s s.choose := by
  unfold State.choose
  split
  · split
    · exact of_same rfl rfl
    · exact serveOldest_moves s
  · exact serveOldest_moves s

theorem arbitrate_moves (s : State) : CacheMoves s s.arbitrate := (applyProfile_moves s).trans (choose_moves _)

theorem enterReady_moves (s : State) : CacheMoves s s.enterReady := (arbitrate_moves _).from_same rfl rfl

theorem suspendedDecision_moves (s : State) : CacheMoves s s.suspendedDecision := by
  unfold State.suspendedDecision
  split
  · exact of_same rfl rfl
  · split
    · exact of_same rfl rfl
    · split
      · exact (beginFill_moves s _).to_same rfl rfl
      · exact of_same rfl rfl

theorem kick_moves (s : State) : CacheMoves s s.kick := by
  unfold State.kick
  split
  · exact refl s
  · split
    · exact arbitrate_moves s
    · split
      · exact of_same rfl rfl
      · exact refl s
    · exact suspendedDecision_moves s
    · exact refl s

theorem kickIfCreated_moves {s t u : State} (h : CacheMoves s t) : CacheMoves s (kickIfCreated u t) := by
  unfold kickIfCreated
  split
  · exact h.trans (kick_moves t)
  · exact h

theorem recoveryReady_moves (s : State) : CacheMoves s s.recoveryReady := by
  unfold State.recoveryReady
  have answered := (answerResets_moves (s.setFlash .ready) .ok).from_same (s := s) rfl rfl
  have told : ∀ u : State, CacheMoves s u → CacheMoves s (if u.fsq.origin = .faulted then u.giveFlashState else u) :=
    fun u h => by
      split
      · exact h.trans (giveFlashState_moves u)
      · exact h
  have goesOn : ∀ u : State, CacheMoves u (if u.resetNext.isSome then u.applyProfile else u.arbitrate) := fun u => by
    split
    · exact applyProfile_moves u
    · exact arbitrate_moves u
  exact (told _ answered).trans (goesOn _)

theorem recoveryFaulted_moves (s : State) (cause : FaultCause) : CacheMoves s (s.recoveryFaulted cause) := by
  unfold State.recoveryFaulted
  refine CacheMoves.trans ?_ (giveFlashState_moves _)
  refine CacheMoves.trans ?_ (answerResets_moves _ _)
  have ended : ∀ f : Fsq → Fsq, CacheMoves s (endAllJobs (s.updFsq f).failFills.jq.jobs (s.updFsq f).failFills) :=
    fun f => ((failFills_moves _).trans (endAllJobs_moves _ _)).from_same rfl rfl
  split
  · exact ended _
  · exact (ended _).trans ((answerProfile_moves _ _ _).from_same rfl rfl)

theorem finishJob_moves (s : State) (o : Status) : CacheMoves s (s.finishJob o) := by
  unfold State.finishJob
  dsimp only
  split
  · exact (endJob_moves s 0 o).trans (((applyProfile_moves _).trans (serveOldest_moves _)).from_same rfl rfl)
  · exact (endJob_moves s 0 o).trans ((arbitrate_moves _).from_same rfl rfl)

theorem timeOutJob_moves (s : State) : CacheMoves s s.timeOutJob := (endJob_moves s 0 .flashTimeout).to_same rfl rfl

theorem abortRunning_moves (s : State) : CacheMoves s s.abortRunning := by
  unfold State.abortRunning
  split
  · exact endJob_moves _ _ _
  · exact refl s

theorem resetTakesEffect_moves (s : State) : CacheMoves s s.resetTakesEffect := by
  unfold State.resetTakesEffect
  split
  · exact of_same rfl rfl
  · exact of_same rfl rfl
  · exact (abortRunning_moves s).to_same rfl rfl

theorem checkPassed_moves (s : State) (j : Job) : CacheMoves s (s.checkPassed j) := by
  unfold State.checkPassed
  split
  · exact of_same rfl rfl
  · exact finishJob_moves _ _

theorem busyEnded_moves (s : State) (j : Job) : CacheMoves s (s.busyEnded j) := by
  unfold State.busyEnded
  split
  · exact finishJob_moves _ _
  · split
    · exact checkPassed_moves _ _
    · exact of_same rfl rfl

theorem startupReady_moves (s : State) : CacheMoves s s.startupReady :=
  ((giveStart_moves _).trans (arbitrate_moves _)).from_same rfl rfl

theorem startupFaulted_moves (s : State) (cause : FaultCause) : CacheMoves s (s.startupFaulted cause) :=
  (giveStart_moves _).from_same rfl rfl

/-- A reset clears cache and entries (R20, R57). -/
theorem clearBlocks_moves (s : State) : CacheMoves s s.clearBlocks := by
  have sets : ∀ i : Fin 128, s.clearBlocks.set i = .reset := fun i => by simp [State.clearBlocks, State.set]
  exact of_move ⟨fun i _ => sets i ▸ reset_recencyOk, .clear rfl sets⟩

/-! ### The requests' own parts -/

theorem refuse_moves (q : Request) (k : Kind) (st : Status) (s : State) : CacheMoves s (q.refuse k st s) :=
  place_moves _ _ _ _

theorem accept_moves (q : Request) (k : Kind) (p : List Byte) (s : State) : CacheMoves s (q.accept k p s) :=
  place_moves _ _ _ _

theorem readBody_moves (q : Request) (s : State) : CacheMoves s (readBody q s) := by
  unfold readBody
  split
  · exact refuse_moves _ _ _ _
  · unfold State.acceptRead
    dsimp only
    split
    · exact of_same rfl rfl
    · exact kickIfCreated_moves (((lookups_moves _ _ _).trans (settle_moves _ _)).from_same rfl rfl)

theorem pinBody_moves (q : Request) (s : State) : CacheMoves s (pinBody q s) := by
  unfold pinBody
  split
  · exact refuse_moves _ _ _ _
  · refine kickIfCreated_moves (CacheMoves.trans ?_ ((lookups_moves _ _ _).trans (settle_moves _ _)))
    exact (foldl addClaim_moves _ _).from_same rfl rfl

theorem unpinBody_moves (q : Request) (s : State) : CacheMoves s (unpinBody q s) := by
  unfold unpinBody
  split
  · exact refuse_moves _ _ _ _
  · exact (unpin_moves s _).trans (accept_moves _ _ _ _)

theorem invalidateBody_moves (q : Request) (s : State) : CacheMoves s (invalidateBody q s) := by
  unfold invalidateBody
  split
  · exact refuse_moves _ _ _ _
  · exact (clearRange_moves s _).trans (accept_moves _ _ _ _)

theorem probeBody_moves (q : Request) (s : State) : CacheMoves s (probeBody q s) := by
  unfold probeBody
  dsimp only
  split
  · split
    · exact accept_moves _ _ _ _
    · exact refuse_moves _ _ _ _
  · exact refuse_moves _ _ _ _

theorem holdRange_moves (s : State) (r : Option Range) : CacheMoves s (s.holdRange r) := by
  unfold State.holdRange
  split
  · exact refl s
  · exact clearRange_moves _ _

theorem appendJob_moves (s : State) (q : Request) (d : JobSpec) : CacheMoves s (s.appendJob q d) := by
  unfold State.appendJob
  dsimp only
  split <;> exact of_same rfl rfl

theorem jobRequest_moves (q : Request) (k : Kind) (own : List (Bool × Status)) (d : JobSpec) (s : State) :
    CacheMoves s (jobRequest q k own d s) := by
  unfold jobRequest
  split
  · exact refuse_moves _ _ _ _
  · have accepted : CacheMoves s (q.accept k (leBytes 2 s.jq.nextId.toNat)
        (((s.appendJob q d).reserve q.link).holdRange d.range)) :=
      ((appendJob_moves s q d).trans ((holdRange_moves _ _).from_same (by simp) (by simp))).trans (accept_moves _ _ _ _)
    unfold State.acceptJob
    dsimp only
    split
    · exact accepted.trans (kick_moves _)
    · exact accepted

theorem cancelBody_moves (q : Request) (s : State) : CacheMoves s (cancelBody q s) := by
  unfold cancelBody
  split
  · exact refuse_moves _ _ _ _
  · split
    · exact refuse_moves _ _ _ _
    · split
      · exact refuse_moves _ _ _ _
      · have ended := fun i => (endJob_moves s i .cancelled).trans (accept_moves q .cancelJob q.payload _)
        unfold State.afterCancel
        dsimp only
        split
        · exact (ended _).trans (kick_moves _)
        · exact ended _

theorem queryBody_moves (q : Request) (s : State) : CacheMoves s (queryBody q s) := by
  unfold queryBody
  split
  · split
    · exact accept_moves _ _ _ _
    · exact refuse_moves _ _ _ _
  · split
    · exact accept_moves _ _ _ _
    · exact refuse_moves _ _ _ _

theorem setProfileBody_moves (q : Request) (s : State) : CacheMoves s (setProfileBody q s) := by
  unfold setProfileBody
  split
  · exact refuse_moves _ _ _ _
  · split
    · exact refuse_moves _ _ _ _
    · split
      · exact refuse_moves _ _ _ _
      · unfold State.pendProfile
        dsimp only
        split
        · exact of_same rfl rfl
        · exact (kick_moves _).from_same rfl rfl

theorem resetFlashBody_moves (q : Request) (s : State) : CacheMoves s (resetFlashBody q s) := by
  unfold resetFlashBody
  dsimp only
  split
  · exact of_same rfl rfl
  · exact (resetTakesEffect_moves _).from_same rfl rfl

theorem protectBody_moves (q : Request) (s : State) : CacheMoves s (protectBody q s) := by
  unfold protectBody
  split
  · exact refuse_moves _ _ _ _
  · split
    · exact refuse_moves _ _ _ _
    · exact (accept_moves _ _ _ _).from_same rfl rfl

theorem unprotectBody_moves (q : Request) (s : State) : CacheMoves s (unprotectBody q s) := by
  unfold unprotectBody
  dsimp only
  split
  · split
    · exact refuse_moves _ _ _ _
    · split
      · exact refuse_moves _ _ _ _
      · exact (accept_moves _ _ _ _).from_same rfl rfl
  · exact refuse_moves _ _ _ _

theorem openBody_moves (q : Request) (s : State) : CacheMoves s (openBody q s) := by
  unfold openBody
  split
  · exact refuse_moves _ _ _ _
  · exact (updLink_moves s q.link _).trans (accept_moves _ _ _ _)

theorem removeRecord_moves (s : State) (r : Record) : CacheMoves s (removeRecord s r) := by
  unfold removeRecord
  dsimp only
  split
  · exact (withdraw_moves s r.id).to_same rfl rfl
  · exact ((withdraw_moves s r.id).trans (foldl (fun t i => dropClaim_moves t (r.lineOf i)) _ _)).to_same rfl rfl

theorem closeBody_moves (q : Request) (s : State) : CacheMoves s (closeBody q s) := by
  unfold closeBody
  exact ((updLink_moves s q.link _).trans (foldl removeRecord_moves _ _)).to_same rfl rfl

theorem nopBody_moves (q : Request) (s : State) : CacheMoves s (nopBody q s) := by
  unfold nopBody
  split
  · exact refuse_moves _ _ _ _
  · exact accept_moves _ _ _ _

theorem getStatsBody_moves (q : Request) (s : State) : CacheMoves s (getStatsBody q s) := by
  unfold getStatsBody
  split
  · exact refuse_moves _ _ _ _
  · dsimp only
    split
    · exact (accept_moves q .getStats (counterRecord s) s).to_same rfl rfl
    · exact accept_moves _ _ _ _

theorem partReset_moves (s : State) : CacheMoves s s.partReset := (clearBlocks_moves s).to_same rfl rfl

/-- The request's own part of every kind. -/
theorem bodyOf_moves (k : Kind) (q : Request) (s : State) : CacheMoves s (bodyOf k q s) := by
  cases k with
  | openSession => exact openBody_moves q s
  | closeSession => exact closeBody_moves q s
  | nop => exact nopBody_moves q s
  | getStatus => exact accept_moves _ _ _ _
  | getStats => exact getStatsBody_moves q s
  | read => exact readBody_moves q s
  | pin => exact pinBody_moves q s
  | unpin => exact unpinBody_moves q s
  | invalidate => exact invalidateBody_moves q s
  | probeLine => exact probeBody_moves q s
  | program => exact jobRequest_moves _ _ _ _ _
  | erase => exact jobRequest_moves _ _ _ _ _
  | raw => exact jobRequest_moves _ _ _ _ _
  | cancelJob => exact cancelBody_moves q s
  | queryJob => exact queryBody_moves q s
  | setProfile => exact setProfileBody_moves q s
  | getProfile => exact accept_moves _ _ _ _
  | resetFlash => exact resetFlashBody_moves q s
  | resetPart => exact partReset_moves s
  | protect => exact protectBody_moves q s
  | unprotect => exact unprotectBody_moves q s
  | listProtect => exact accept_moves _ _ _ _

end Sys2Proof.Machine
end

section
/-! PROOFS. The outcome of every command, and O56 and O58. -/

namespace Sys2Proof.Machine

open CacheMoves

/-- Where a command answers a next state, it is reached by moves of cache and entries. -/
def Leads (s : State) (o : Host.Outcome State Fault Refusal) : Prop := ∀ t, o = .next t → CacheMoves s t

theorem leads_next {s t : State} (h : CacheMoves s t) : Leads s (.next t) := fun _ e => by cases e; exact h

theorem leads_fault (s : State) (f : Fault) : Leads s (.fault f) := fun _ e => by cases e

/-- A change of all but cache and entries first. -/
theorem Leads.from_same {s u : State} {o : Host.Outcome State Fault Refusal} (h : Leads u o) (hc : u.cache = s.cache)
    (hf : u.fills = s.fills) : Leads s o := fun t e => (h t e).from_same hc hf

theorem atExpiry_leads (s : State) (left : Nat) {act : State → State} (h : ∀ u, CacheMoves u (act u)) :
    Leads s (atExpiry s left act) := fun t e => by
  obtain ⟨-, rfl⟩ := atExpiry_next e
  exact (h _).from_same rfl rfl

/-! ### Frames -/

theorem openA_cache (s : State) : s.openA.cache = s.cache := by
  obtain ⟨p, hp⟩ := openA_frame s
  rw [hp]

theorem openA_fills (s : State) : s.openA.fills = s.fills := by
  obtain ⟨p, hp⟩ := openA_frame s
  rw [hp]

theorem take_moves (s : State) (l : Link) : CacheMoves s (s.take l) := updLink_moves s l _

theorem openA_moves (s : State) : CacheMoves s s.openA := of_same (openA_cache s) (openA_fills s)

/-- The rise of CS_A_N and what the link then is. -/
theorem riseA_updLink_moves (s : State) (f : LinkState → LinkState) : CacheMoves s (s.riseA.updLink .a f) :=
  of_same rfl rfl

/-- The selector and what the link then is. -/
theorem selectA_updLink_moves (s : State) (b : Byte) (x : SpiTransaction) (f : LinkState → LinkState) :
    CacheMoves s ((s.selectA b x).updLink .a f) := of_same rfl rfl

theorem receiveA_leads (s : State) (fits : List Byte → Bool) {act : State → State} (h : ∀ u, CacheMoves u (act u)) :
    Leads s ((s.receiveA fits).outcome act) := by
  refine Leads.from_same (u := s.openA) ?_ (openA_cache s) (openA_fills s)
  unfold State.receiveA
  dsimp only
  split
  · split
    · exact leads_next ((selectA_updLink_moves _ _ _ _).trans (h _))
    · exact leads_next (selectA_updLink_moves _ _ _ _)
  · split
    · split
      · exact leads_next ((riseA_updLink_moves _ _).trans (h _))
      · exact leads_fault _ _
    · exact leads_next (riseA_updLink_moves _ _)
  · exact leads_fault _ _
  · exact leads_next (of_same rfl rfl)

theorem receiveB_leads (s : State) (fits : List Byte → Bool) {act : State → State} (h : ∀ u, CacheMoves u (act u)) :
    Leads s ((s.receiveB fits).outcome act) := by
  unfold State.receiveB
  split
  · exact leads_next (refl s)
  · split
    · split
      · exact leads_next ((take_moves s .b).trans (h _))
      · exact leads_next (updLink_moves _ _ _)
    · exact leads_next (updLink_moves _ _ _)
    · split
      · exact leads_next ((take_moves s .b).trans (h _))
      · exact leads_fault _ _

theorem receive_leads (s : State) (l : Link) (frame : List Byte) {act : State → State}
    (h : ∀ u, CacheMoves u (act u)) : Leads s ((s.receive l frame).outcome act) := by
  cases l with
  | a => exact receiveA_leads s _ h
  | b => exact receiveB_leads s (fun buf => beginsFrame buf frame) h

theorem reject_moves (s : State) (l : Link) (x : Byte) (r : RejectReason) : CacheMoves s (s.reject l x r) :=
  (updLink_moves s l _).trans (place_moves _ _ _ _)

theorem discardRest_moves (s : State) (l : Link) : CacheMoves s (s.discardRest l) := by
  cases l with
  | a => exact refl s
  | b => exact of_same rfl rfl

theorem rejectLength_moves (s : State) (l : Link) (x : Byte) : CacheMoves s ((s.reject l x .length).discardRest l) :=
  (reject_moves s l x .length).trans (discardRest_moves _ l)

theorem shiftInA_leads (s : State) (bytes : List Byte → Option (List Byte)) : Leads s (s.shiftInA bytes) := fun t e => by
  rw [(shiftInA_next e).1]
  exact of_same rfl rfl

theorem arrival_leads (s : State) (v : Arrival) (frame : List Byte) {ends : Link → Host.Outcome State Fault Refusal}
    (h : ∀ l, Leads s (ends l)) : Leads s (s.arrival v frame ends) := by
  cases v with
  | a => exact h .a
  | aUpTo n => exact shiftInA_leads s _
  | b => exact h .b

theorem serve_moves (q : Request) (k : Kind) {body : Request → State → State} (h : ∀ q s, CacheMoves s (body q s))
    (s : State) : CacheMoves s (q.serve k body s) := by
  unfold Request.serve
  split
  · exact refuse_moves _ _ _ _
  · split
    · exact refuse_moves _ _ _ _
    · exact h q s

/-- A request of any kind. -/
theorem requestArrives_leads (k : Kind) {body : Request → State → State} (h : ∀ q s, CacheMoves s (body q s))
    (v : Arrival) (tag : Byte) (p : List Byte) (s : State) : Leads s (requestArrives k body v tag p s) := by
  refine arrival_leads s v _ fun l => ?_
  unfold frameTaken
  dsimp only
  split
  · exact receive_leads s l _ fun u => rejectLength_moves u l _
  · exact receive_leads s l _ fun u => serve_moves _ k h u

theorem execUnknownKind_leads (v : Arrival) (kind tag : Byte) (p : List Byte) (s : State) :
    Leads s (execUnknownKind v kind tag p s) := by
  unfold execUnknownKind
  split
  · exact leads_fault _ _
  · refine arrival_leads s v _ fun l => ?_
    unfold unknownTaken
    dsimp only
    split
    · exact receive_leads s l _ fun u => rejectLength_moves u l _
    · exact receive_leads s l _ fun u => place_moves u _ _ _

theorem truncateB_leads (s : State) : Leads s s.truncateB :=
  atExpiry_leads s _ fun u => (take_moves u .b).trans (reject_moves _ _ _ _)

theorem rejectedB_leads (s : State) (r : RejectReason) : Leads s (s.rejectedB r) := by
  cases r with
  | truncated =>
    show Leads s s.truncatedB
    unfold State.truncatedB
    split
    · exact leads_next (refl s)
    · split
      · split
        · exact (truncateB_leads _).from_same rfl rfl
        · exact leads_next (updLink_moves _ _ _)
      · exact truncateB_leads s
      · exact leads_next (updLink_moves _ _ _)
  | length => exact receiveB_leads s _ fun u => rejectLength_moves u .b _
  | crc => exact receiveB_leads s _ fun u => reject_moves u .b _ _

theorem execFrameReject_leads (v : RejectArrival) (r : RejectReason) (s : State) : Leads s (execFrameReject v r s) := by
  cases v with
  | a => exact receiveA_leads s _ fun u => reject_moves u .a _ _
  | aBytes bytes => exact shiftInA_leads s _
  | b => exact rejectedB_leads s r

theorem execLinkAOverrun_leads (s : State) : Leads s (execLinkAOverrun s) := by
  unfold execLinkAOverrun
  dsimp only
  split
  · split
    · exact leads_fault _ _
    · exact receiveA_leads s _ refl
  · split
    · exact leads_fault _ _
    · exact receiveA_leads s _ refl
  · exact leads_fault _ _
  · exact leads_next ((openA_moves s).to_same rfl rfl)

theorem execLinkBOverrun_leads (s : State) : Leads s (execLinkBOverrun s) := by
  unfold execLinkBOverrun
  split
  · exact leads_next (refl s)
  · split
    · exact leads_next (updLink_moves _ _ _)
    · exact leads_fault _ _

theorem fall_leads (s : State) : Leads s s.fall := by
  unfold State.fall
  split
  · exact leads_next (of_same rfl rfl)
  · exact leads_fault _ _

theorem firstByte_leads (s : State) {act : State → Byte → State} (h : ∀ u b, CacheMoves u (act u b)) :
    Leads s (s.firstByte act) := by
  unfold State.firstByte
  dsimp only
  split
  · exact leads_next ((openA_moves s).trans (h _ _))
  · exact leads_next (openA_moves s)
  · exact leads_fault _ _

theorem execLinkAIgnored_leads (part : IgnoredPart) (s : State) : Leads s (execLinkAIgnored part s) := by
  have first := firstByte_leads s (act := fun t b => t.selectA b .ignored) fun u b => of_same rfl rfl
  cases part with
  | fall => exact fall_leads s
  | select b =>
    unfold execLinkAIgnored
    dsimp only
    split
    · exact leads_fault _ _
    · exact first
  | rise =>
    unfold execLinkAIgnored
    dsimp only
    split
    · exact leads_next (of_same rfl rfl)
    · exact leads_next (of_same rfl rfl)
    · exact leads_fault _ _
  | whole b =>
    unfold execLinkAIgnored
    dsimp only
    split
    · exact leads_fault _ _
    · split
      · next t e => exact leads_next ((first t e).to_same rfl rfl)
      · exact first

/-- A fetch leaves cache and entries (R156). -/
theorem execFetch_leads (part : FetchPart) (s : State) : Leads s (execFetch part s) := fun t e => by
  rw [(execFetch_next e).1]
  exact of_same rfl rfl

theorem execTransmitBegin_leads (s : State) (cts : Bool) : Leads s (execTransmitBegin s cts) := by
  unfold execTransmitBegin
  dsimp only
  split <;> exact leads_next (of_same rfl rfl)

theorem execTransmitEnd_leads (s : State) : Leads s (execTransmitEnd s) := by
  unfold execTransmitEnd
  split
  · exact leads_fault _ _
  · exact leads_next (of_same rfl rfl)
  · exact leads_next (of_same rfl rfl)

theorem execInterByteExpiry_leads (s : State) : Leads s (execInterByteExpiry s) := by
  unfold execInterByteExpiry
  split
  · exact leads_fault _ _
  · exact truncateB_leads s
  · exact atExpiry_leads s _ fun u => updLink_moves _ _ _

theorem takeWholeB_moves (s : State) (bytes : List Byte) : CacheMoves s (s.takeWholeB bytes) := by
  unfold State.takeWholeB
  refine (take_moves s .b).trans ?_
  dsimp only
  split
  · split
    · next k _ => exact serve_moves _ _ (bodyOf_moves k) _
    · exact place_moves _ _ _ _
  · exact reject_moves _ _ _ _

theorem execByteReceived_leads (b : Byte) (s : State) : Leads s (execByteReceived b s) := by
  unfold execByteReceived
  split
  · exact leads_next (refl s)
  · split
    · split
      · split
        · exact leads_next (updLink_moves _ _ _)
        · exact leads_next (updLink_moves _ _ _)
      · exact leads_next (refl s)
    · refine leads_next ?_
      unfold State.storeByteB
      dsimp only
      split
      · exact (take_moves s .b).trans (rejectLength_moves _ _ _)
      · split
        · exact takeWholeB_moves _ _
        · exact updLink_moves _ _ _
    · exact leads_next (updLink_moves _ _ _)

/-! ### The flash port -/

theorem execFillArrival_leads (data : List Byte) (s : State) : Leads s (execFillArrival data s) := by
  unfold execFillArrival
  split
  · exact leads_fault _ _
  · split
    · exact leads_fault _ _
    · split
      · exact leads_fault _ _
      · next f hf =>
        refine leads_next (CacheMoves.trans ((arrive_moves (s := s.endPort) (fill_eq_some hf).1 data).from_same rfl rfl) ?_)
        unfold State.afterFill
        split
        · exact resetTakesEffect_moves _
        · split
          · exact suspendedDecision_moves _
          · exact enterReady_moves _

theorem jobTransactionEnd_leads (s : State) (use : TransactionUse) {act : Job → State → State}
    (h : ∀ j u, CacheMoves u (act j u)) : Leads s (jobTransactionEnd s use act) := by
  unfold jobTransactionEnd
  split
  · split
    · exact leads_fault _ _
    · dsimp only
      refine leads_next (CacheMoves.from_same (t := s.endPort) ?_ rfl rfl)
      split
      · exact resetTakesEffect_moves _
      · exact h _ _
  · exact leads_fault _ _

theorem execDescriptorEnd_leads (data : List Byte) (s : State) : Leads s (execDescriptorEnd data s) := by
  unfold execDescriptorEnd
  split
  · exact leads_fault _ _
  · refine jobTransactionEnd_leads s _ fun j u => ?_
    unfold State.descriptorEnded
    dsimp only
    split
    · exact of_same rfl rfl
    · exact (finishJob_moves _ _).from_same rfl rfl

theorem statusRead_moves (s : State) (b : Byte) (j : Job) : CacheMoves s (s.statusRead b j) := by
  unfold State.statusRead
  split
  · exact busyEnded_moves _ _
  · split
    · exact timeOutJob_moves _
    · split
      · exact of_same rfl rfl
      · exact of_same rfl rfl

theorem execPollExpiry_leads (s : State) : Leads s (execPollExpiry s) := by
  unfold execPollExpiry
  split
  · exact atExpiry_leads s _ fun u => of_same rfl rfl
  · exact leads_fault _ _

theorem execOperationTimeout_leads (s : State) : Leads s (execOperationTimeout s) := by
  unfold execOperationTimeout
  split
  · split
    · exact leads_fault _ _
    · dsimp only
      split
      · exact atExpiry_leads s _ timeOutJob_moves
      · exact atExpiry_leads s _ refl
  · exact leads_fault _ _

theorem errorStatusRead_moves (s : State) (b : Byte) (j : Job) : CacheMoves s (s.errorStatusRead b j) := by
  unfold State.errorStatusRead
  split
  · split
    · exact finishJob_moves _ _
    · exact of_same rfl rfl
  · exact checkPassed_moves _ _

theorem execVerifyEnd_leads (data : List Byte) (s : State) : Leads s (execVerifyEnd data s) := by
  unfold execVerifyEnd
  split
  · exact leads_fault _ _
  · exact jobTransactionEnd_leads s _ fun j u => finishJob_moves _ _

/-! ### Suspension -/

theorem execHoldExpiry_leads (s : State) : Leads s (execHoldExpiry s) := by
  unfold execHoldExpiry
  dsimp only
  split
  · exact leads_fault _ _
  · split
    · split
      · exact leads_fault _ _
      · split
        · refine atExpiry_leads s _ fun u => ?_
          split
          · exact of_same rfl rfl
          · exact refl u
        · exact atExpiry_leads s _ refl
    · exact leads_fault _ _

theorem suspendedStatus_moves (s : State) (b : Byte) (j : Job) : CacheMoves s (s.suspendedStatus b j) := by
  unfold State.suspendedStatus
  dsimp only
  split
  · exact (suspendedDecision_moves _).from_same rfl rfl
  · split
    · exact (busyEnded_moves _ _).from_same rfl rfl
    · split
      · exact timeOutJob_moves _
      · exact of_same rfl rfl

theorem execSuspendPollExpiry_leads (s : State) : Leads s (execSuspendPollExpiry s) := by
  unfold execSuspendPollExpiry
  split
  · exact atExpiry_leads s _ fun u => of_same rfl rfl
  · exact leads_fault _ _

theorem execSuspendTimeout_leads (s : State) : Leads s (execSuspendTimeout s) := by
  unfold execSuspendTimeout
  dsimp only
  split
  · exact atExpiry_leads s _ timeOutJob_moves
  · split
    · exact atExpiry_leads s _ refl
    · exact leads_fault _ _

theorem resumed_moves (s : State) : CacheMoves s s.resumed := by
  unfold State.resumed
  exact of_same (by simp) (by simp)

theorem execResumeEnd_leads (s : State) : Leads s (execResumeEnd s) := by
  unfold execResumeEnd
  split
  · split
    · exact leads_fault _ _
    · dsimp only
      refine leads_next (CacheMoves.trans ((resumed_moves s.endPort).from_same rfl rfl) ?_)
      split
      · exact resetTakesEffect_moves _
      · exact of_same rfl rfl
  · exact leads_fault _ _

/-! ### Recovery -/

theorem recoveryStep_leads (s : State) {act : State → State} (h : ∀ u, CacheMoves u (act u)) :
    Leads s (.next (s.recoveryStep act)) := by
  refine leads_next (CacheMoves.from_same (t := s.endPort) ?_ rfl rfl)
  unfold State.recoveryStep
  dsimp only
  split
  · exact recoveryFaulted_moves _ _
  · split
    · exact of_same rfl rfl
    · exact h _

theorem execRecoveryResetEnd_leads (s : State) : Leads s (execRecoveryResetEnd s) := by
  unfold execRecoveryResetEnd
  split
  · exact recoveryStep_leads s fun u => of_same rfl rfl
  · split
    · exact recoveryStep_leads s fun u => of_same rfl rfl
    · exact leads_fault _ _

theorem execRecoveryWaitEnd_leads (s : State) : Leads s (execRecoveryWaitEnd s) := by
  unfold execRecoveryWaitEnd
  split
  · exact atExpiry_leads s _ fun u => of_same rfl rfl
  · exact leads_fault _ _

theorem recoveryStatus_moves (s : State) (b : Byte) : CacheMoves s (s.recoveryStatus b) := by
  unfold State.recoveryStatus
  split
  · split
    · exact of_same rfl rfl
    · exact recoveryReady_moves _
  · split
    · exact of_same rfl rfl
    · exact recoveryFaulted_moves _ _

theorem execRecoveryStatusEnd_leads (b : Byte) (s : State) : Leads s (execRecoveryStatusEnd b s) := by
  unfold execRecoveryStatusEnd
  split
  · exact recoveryStep_leads s fun u => recoveryStatus_moves u b
  · exact leads_fault _ _

theorem recoveryId_moves (s : State) (i : FlashId) : CacheMoves s (s.recoveryId i) := by
  unfold State.recoveryId
  dsimp only
  split
  · exact (recoveryFaulted_moves _ _).from_same rfl rfl
  · exact (recoveryReady_moves _).from_same rfl rfl

theorem execRecoveryIdEnd_leads (i : FlashId) (s : State) : Leads s (execRecoveryIdEnd i s) := by
  unfold execRecoveryIdEnd
  split
  · exact recoveryStep_leads s fun u => recoveryId_moves u i
  · exact leads_fault _ _

theorem execRecoveryTimeout_leads (s : State) : Leads s (execRecoveryTimeout s) := by
  unfold execRecoveryTimeout
  dsimp only
  split
  · split
    · exact atExpiry_leads s _ fun u => recoveryFaulted_moves u _
    · exact atExpiry_leads s _ refl
  · exact leads_fault _ _

/-! ### Resets and start-up -/

theorem execPinResetRelease_leads (cap : Fin 8) (baud : Fin 4) (s : State) : Leads s (execPinResetRelease cap baud s) := by
  unfold execPinResetRelease
  split
  · exact leads_next (of_same rfl rfl)
  · exact leads_fault _ _

theorem execStartupSettleEnd_leads (s : State) : Leads s (execStartupSettleEnd s) := by
  unfold execStartupSettleEnd
  split
  · exact atExpiry_leads s _ fun u => of_same rfl rfl
  · exact leads_fault _ _

theorem execStartupResetEnd_leads (s : State) : Leads s (execStartupResetEnd s) := by
  unfold execStartupResetEnd
  split
  · exact leads_next (of_same rfl rfl)
  · split
    · exact leads_next (of_same rfl rfl)
    · exact leads_fault _ _

theorem execStartupWaitEnd_leads (s : State) : Leads s (execStartupWaitEnd s) := by
  unfold execStartupWaitEnd
  split
  · exact atExpiry_leads s _ fun u => of_same rfl rfl
  · exact leads_fault _ _

theorem execStartupIdEnd_leads (i : FlashId) (s : State) : Leads s (execStartupIdEnd i s) := by
  unfold execStartupIdEnd
  split
  · dsimp only
    refine leads_next ?_
    split
    · exact (startupFaulted_moves _ _).from_same rfl rfl
    · exact of_same rfl rfl
  · exact leads_fault _ _

theorem execStartupStatusEnd_leads (b : Byte) (s : State) : Leads s (execStartupStatusEnd b s) := by
  unfold execStartupStatusEnd
  split
  · dsimp only
    refine leads_next ?_
    split
    · exact (startupReady_moves _).from_same rfl rfl
    · split
      · exact (startupFaulted_moves _ _).from_same rfl rfl
      · exact of_same rfl rfl
  · exact leads_fault _ _

theorem execStartupPollExpiry_leads (s : State) : Leads s (execStartupPollExpiry s) := by
  unfold execStartupPollExpiry
  split
  · exact atExpiry_leads s _ fun u => of_same rfl rfl
  · exact leads_fault _ _

theorem execStartupBusyLimit_leads (s : State) : Leads s (execStartupBusyLimit s) := by
  unfold execStartupBusyLimit
  dsimp only
  split
  · exact atExpiry_leads s _ fun u => startupFaulted_moves u _
  · split
    · exact atExpiry_leads s _ refl
    · exact leads_fault _ _

/-! ### Every command and every step -/

theorem exec_leads (c : Instr) (s : State) : Leads s (exec c s) := by
  cases c with
  | powerOn cap baud => exact leads_next ((clearBlocks_moves s).to_same rfl rfl)
  | pinResetAssert => exact leads_next ((clearBlocks_moves s).to_same rfl rfl)
  | pinResetRelease cap baud => exact execPinResetRelease_leads cap baud s
  | startupSettleEnd => exact execStartupSettleEnd_leads s
  | startupResetCommandEnd => exact execStartupResetEnd_leads s
  | startupRecoveryWaitEnd => exact execStartupWaitEnd_leads s
  | startupIdReadEnd i => exact execStartupIdEnd_leads i s
  | startupStatusReadEnd b => exact execStartupStatusEnd_leads b s
  | startupPollIntervalExpiry => exact execStartupPollExpiry_leads s
  | startupBusyLimitExpiry => exact execStartupBusyLimit_leads s
  | openSession v tag p => exact requestArrives_leads _ (bodyOf_moves .openSession) v tag p s
  | closeSession v tag p => exact requestArrives_leads _ (bodyOf_moves .closeSession) v tag p s
  | nop v tag p => exact requestArrives_leads _ (bodyOf_moves .nop) v tag p s
  | getStatus v tag p => exact requestArrives_leads _ (bodyOf_moves .getStatus) v tag p s
  | getStats v tag p => exact requestArrives_leads _ (bodyOf_moves .getStats) v tag p s
  | read v tag p => exact requestArrives_leads _ (bodyOf_moves .read) v tag p s
  | pin v tag p => exact requestArrives_leads _ (bodyOf_moves .pin) v tag p s
  | unpin v tag p => exact requestArrives_leads _ (bodyOf_moves .unpin) v tag p s
  | invalidate v tag p => exact requestArrives_leads _ (bodyOf_moves .invalidate) v tag p s
  | probeLine v tag p => exact requestArrives_leads _ (bodyOf_moves .probeLine) v tag p s
  | program v tag p => exact requestArrives_leads _ (bodyOf_moves .program) v tag p s
  | erase v tag p => exact requestArrives_leads _ (bodyOf_moves .erase) v tag p s
  | raw v tag p => exact requestArrives_leads _ (bodyOf_moves .raw) v tag p s
  | cancelJob v tag p => exact requestArrives_leads _ (bodyOf_moves .cancelJob) v tag p s
  | queryJob v tag p => exact requestArrives_leads _ (bodyOf_moves .queryJob) v tag p s
  | setProfile v tag p => exact requestArrives_leads _ (bodyOf_moves .setProfile) v tag p s
  | getProfile v tag p => exact requestArrives_leads _ (bodyOf_moves .getProfile) v tag p s
  | resetFlash v tag p => exact requestArrives_leads _ (bodyOf_moves .resetFlash) v tag p s
  | resetPart v tag p => exact requestArrives_leads _ (bodyOf_moves .resetPart) v tag p s
  | protect v tag p => exact requestArrives_leads _ (bodyOf_moves .protect) v tag p s
  | unprotect v tag p => exact requestArrives_leads _ (bodyOf_moves .unprotect) v tag p s
  | listProtect v tag p => exact requestArrives_leads _ (bodyOf_moves .listProtect) v tag p s
  | unknownKind v kind tag p => exact execUnknownKind_leads v kind tag p s
  | frameReject v r => exact execFrameReject_leads v r s
  | linkAOverrun => exact execLinkAOverrun_leads s
  | linkAIgnoredTransaction part => exact execLinkAIgnored_leads part s
  | fetch part => exact execFetch_leads part s
  | linkBOverrun => exact execLinkBOverrun_leads s
  | interByteTimerExpiry => exact execInterByteExpiry_leads s
  | linkBTransmitBegin cts => exact execTransmitBegin_leads s cts
  | linkBTransmitEnd => exact execTransmitEnd_leads s
  | fillArrival data => exact execFillArrival_leads data s
  | writeEnableEnd =>
    exact jobTransactionEnd_leads s .writeEnable (act := fun j t => t.begin (t.mainTransaction j)) fun j u =>
      of_same rfl rfl
  | programTransactionEnd => exact jobTransactionEnd_leads s _ fun j u => of_same rfl rfl
  | eraseTransactionEnd => exact jobTransactionEnd_leads s _ fun j u => of_same rfl rfl
  | descriptorTransactionEnd data => exact execDescriptorEnd_leads data s
  | statusReadEnd b => exact jobTransactionEnd_leads s _ fun j u => statusRead_moves u b j
  | pollIntervalExpiry => exact execPollExpiry_leads s
  | operationTimeout => exact execOperationTimeout_leads s
  | errorStatusReadEnd b => exact jobTransactionEnd_leads s _ fun j u => errorStatusRead_moves u b j
  | clearStatusEnd => exact jobTransactionEnd_leads s _ fun j u => finishJob_moves u _
  | verifyReadEnd data => exact execVerifyEnd_leads data s
  | holdTimeExpiry => exact execHoldExpiry_leads s
  | suspendCommandEnd =>
    exact jobTransactionEnd_leads s .suspendCommand
      (act := fun _ t => (t.updFsq (fun q => { q with suspendTime := 0 })).beginSuspendedRead) fun j u => of_same rfl rfl
  | suspendedStatusReadEnd b => exact jobTransactionEnd_leads s _ fun j u => suspendedStatus_moves u b j
  | suspendPollIntervalExpiry => exact execSuspendPollExpiry_leads s
  | suspendTimeout => exact execSuspendTimeout_leads s
  | resumeEnd => exact execResumeEnd_leads s
  | recoveryResetCommandEnd => exact execRecoveryResetEnd_leads s
  | recoveryWaitEnd => exact execRecoveryWaitEnd_leads s
  | recoveryStatusReadEnd b => exact execRecoveryStatusEnd_leads b s
  | recoveryIdReadEnd i => exact execRecoveryIdEnd_leads i s
  | recoveryTimeout => exact execRecoveryTimeout_leads s
  | linkBByteReceived b => exact execByteReceived_leads b s

/-- What a step can do to cache and entries. -/
theorem step_moves {s t : State} (h : step s = .next t) : CacheMoves s t := by
  rcases step_next h with ⟨-, rfl⟩ | ⟨c, rest, -, hc⟩
  · unfold State.tick
    split
    · exact of_same rfl rfl
    · exact refl s
  · exact (exec_leads c { s with pending := rest } t hc).from_same rfl rfl

/-- Settles O56: each move of a step rearranges the recency lists at most. -/
theorem stepKeepsRecencyPermutations : Obligations.StepKeepsRecencyPermutations :=
  fun _ _ hs h => (step_moves h).keeps_recency hs

/-- Settles O58: each move of a step keeps one copy of a line, one entry for it and the bonds. -/
theorem stepKeepsOneCopyOfALine : Obligations.StepKeepsOneCopyOfALine :=
  fun _ _ hs h => (step_moves h).keeps_cacheOk hs

end Sys2Proof.Machine
end

section
/-! PROOFS. How a request on an OPEN link is answered; UNPIN, INVALIDATE and PROBE_LINE; and what holds after reset. -/

namespace Sys2Proof.Machine

/-! ### A request on an OPEN link -/

/-- A request of the right size that is taken on an OPEN link runs its own part on the state with the frame taken. -/
theorem exec_request {k : Kind} {l : Link} {tag : Byte} {p : List Byte} {s : State}
    (ht : s.takesRequest k l tag p = true) (ho : (s.link l).isOpen = true) (hs : wrongSize k p = false) :
    exec (requestOf k l tag p) s =
      .next (bodyOf k { link := l, session := (s.link l).session, tag := tag, payload := p } (s.afterTake l)) := by
  have frame : requestArrives k (bodyOf k) l.arrival tag p s =
      .next (bodyOf k { link := l, session := (s.link l).session, tag := tag, payload := p } (s.afterTake l)) := by
    rw [requestArrives_arrival, frameTaken_of_takes _ _ _ _ _ _ ht, serve_body _ _ _ _ (.inr (by simpa using ho)) hs]
  rw [← frame]
  cases k <;> rfl

/-- The first check decides. -/
theorem firstFailure_cons (b : Bool) (st : Status) (cs : List (Bool × Status)) :
    firstFailure ((b, st) :: cs) = if b then some st else firstFailure cs := by
  cases b <;> rfl

theorem firstFailure_nil : firstFailure [] = none := rfl

/-- A refusal of a request on an OPEN link. -/
theorem refused_at_once (k : Kind) {l : Link} (tag : Byte) (p : List Byte) (st : Status) {s : State}
    (ho : (s.link l).isOpen = true) :
    Refused k l tag p st s (({ link := l, session := (s.link l).session, tag := tag, payload := p } : Request).refuse k st
      (s.afterTake l)) :=
  ⟨answered_at_once s l _ ho, blocks_of_place s l _ _⟩

/-- The links of a state are the links with the frame taken; all behind them may differ. -/
theorem LinksSame.link {s t : State} (h : LinksSame s t) (l : Link) : t.link l = s.link l := by
  cases l
  · exact h.1
  · exact h.2.1

theorem LinksSame.refl (s : State) : LinksSame s s := ⟨rfl, rfl, rfl, rfl, rfl, rfl⟩

theorem LinksSame.trans {s t u : State} (h : LinksSame s t) (g : LinksSame t u) : LinksSame s u := by
  obtain ⟨h1, h2, h3, h4, h5, h6⟩ := h
  obtain ⟨g1, g2, g3, g4, g5, g6⟩ := g
  exact ⟨g1.trans h1, g2.trans h2, g3.trans h3, g4.trans h4, g5.trans h5, g6.trans h6⟩

/-- What stands elsewhere than on a link stands after a change behind the links. -/
theorem ElsewhereSame.trans {s t u : State} {l : Link} (h : ElsewhereSame l s t) (g : LinksSame t u) :
    ElsewhereSame l s u := by
  obtain ⟨other, spi, uart, pins, pending⟩ := h
  refine ⟨by rw [g.link, other], ?_⟩
  obtain ⟨-, -, hspi, huart, hpins, hpending⟩ := g
  exact ⟨by rw [hspi, spi], by rw [huart, uart], by rw [hpins, pins], by rw [hpending, pending]⟩

theorem afterTake_elsewhere (s : State) (l : Link) : ElsewhereSame l s (s.afterTake l) :=
  ⟨afterTake_other s l, afterTake_transaction s l, afterTake_uart s l, afterTake_pins s l, afterTake_pending s l⟩

/-- A reply placed as the answer of a taken frame, whatever the request has changed behind the links. -/
theorem answered_of_linksSame {s t : State} {l : Link} (m : Message) (ho : (s.link l).isOpen = true)
    (h : LinksSame (s.afterTake l) t) : Answered l m s (t.place l (s.link l).session m) := by
  refine answered_of_place s _ l m ho (by rw [place_link, h.link, afterTake_link]) ?_
  obtain ⟨other, spi, uart, pins, pending⟩ := ((afterTake_elsewhere s l).trans h)
  refine ⟨?_, by rw [place_spi, spi], by rw [place_uart, uart], by rw [place_pins, pins],
    by rw [place_pending, pending]⟩
  rw [place_link_other _ _ _ _ _ (by cases l <;> simp [otherLink]), other]

/-- A request that waits: its frame is taken and its slot kept. -/
theorem frameTaken_of_linksSame {s t : State} {l : Link} (h : LinksSame (s.afterTake l) t) :
    FrameTaken l (s.link l).fifo ((s.link l).session :: (s.link l).reserved) s t := by
  refine ⟨?_, ?reserved, ?_, ?_, ?_, ?_, ?_, ?_, ?_, ?_, ((afterTake_elsewhere s l).trans h)⟩ <;> rw [h.link, afterTake_link]
  case reserved => rw [take_reserved]; exact List.perm_append_comm
  all_goals simp

/-! ### What is read off the state with the frame taken -/

@[simp] theorem afterTake_set (s : State) (l : Link) (i : Fin 128) : (s.afterTake l).set i = s.set i :=
  set_eq_of_cache (afterTake_cache s l) i

@[simp] theorem place_set (s : State) (l : Link) (x : Byte) (m : Message) (i : Fin 128) :
    (s.place l x m).set i = s.set i := set_eq_of_cache (place_cache s l x m) i

@[simp] theorem afterTake_beyond (s : State) (l : Link) (r : Range) : (s.afterTake l).beyond r = s.beyond r := by
  rw [State.beyond, State.capacity, afterTake_fsq]
  rfl

@[simp] theorem afterTake_overlapsPin (s : State) (l : Link) (r : Range) :
    (s.afterTake l).overlapsPin r = s.overlapsPin r := by simp [State.overlapsPin]

@[simp] theorem afterTake_countWays (s : State) (l : Link) (p : Fin 128 → CacheSet → Fin 4 → Bool) :
    (s.afterTake l).countWays p = s.countWays p := by simp [State.countWays]

@[simp] theorem afterTake_doomable (s : State) (l : Link) (r : Range) : (s.afterTake l).doomable r = s.doomable r := by
  simp [State.doomable]

theorem overlapsPin_iff {s : State} {r : Range} :
    s.overlapsPin r = true ↔ ∃ q ∈ s.records, q.kind = .pin ∧ shareLine r q.range = true := by
  simp [State.overlapsPin]

theorem beyond_iff {s : State} {r : Range} : s.beyond r = true ↔ s.capacity < r.base + r.length := by
  simp [State.beyond]

/-! ### UNPIN -/

theorem withPinned_false_of_unpinned {x : Line} (h : x.pinned = false) : x.withPinned false = x := by
  cases x with
  | valid t p d => cases h; rfl
  | _ => rfl

/-- Every way of the range is unpinned, and no other changes (R15). -/
theorem unpin_ways (c : CacheSet) (i : Fin 128) (r : Range) (w : Fin 4) :
    (c.unpin i r).ways[w] =
      if lineInRange (wayLine i c.ways[w].tag) r then c.ways[w].withPinned false else c.ways[w] := by
  rw [CacheSet.unpin, (foldl_setPinned _ c false).2.2]
  cases hr : lineInRange (wayLine i c.ways[w].tag) r with
  | false =>
    have : c.pinnedIn i r w = false := by rw [CacheSet.pinnedIn, hr, Bool.and_false]
    rw [if_neg fun h => by simp [this] at h, if_neg (by simp)]
  | true =>
    rw [if_pos rfl]
    split
    · rfl
    · next h =>
      have hp : c.ways[w].pinned = false := by
        by_contra hp
        refine h (List.mem_filter.mpr ⟨mem_wayNumbers w, ?_⟩)
        rw [CacheSet.pinnedIn, hr, Bool.and_true]
        exact Bool.eq_true_of_not_eq_false hp
      exact (withPinned_false_of_unpinned hp).symm

theorem unpin_recency (c : CacheSet) (i : Fin 128) (r : Range) : (c.unpin i r).recency = c.recency :=
  (foldl_setPinned _ c false).1

theorem unpin_claims (c : CacheSet) (i : Fin 128) (r : Range) : (c.unpin i r).claims = c.claims :=
  (foldl_setPinned _ c false).2.1

theorem mapSets_linksSame (s : State) (f : Fin 128 → CacheSet → CacheSet) : LinksSame s (s.mapSets f) := by
  refine ⟨?_, ?_, ?_, ?_, ?_, ?_⟩ <;> simp

theorem unpinBody_refuses {q : Request} {s : State} {st : Status} (h : firstFailure (unpinChecks q s) = some st) :
    unpinBody q s = q.refuse .unpin st s := by rw [unpinBody, h]

theorem unpinBody_accepts {q : Request} {s : State} (h : firstFailure (unpinChecks q s) = none) :
    unpinBody q s = (s.mapSets (fun i c => c.unpin i (payloadRange q.payload 4))).place q.link q.session
      (replyMessage .unpin q.tag .ok
        (leBytes 2 (s.countWays (fun i c w => c.pinnedIn i (payloadRange q.payload 4) w)))) := by
  rw [unpinBody, h]
  rfl

/-- Settles O28: each check that fails refuses; else the flags of the range are cleared and counted. -/
theorem unpinClearsPinnedFlags : Obligations.UnpinClearsPinnedFlags := by
  intro l tag p s ht ho hp
  refine ⟨_, exec_request ht ho (by simp [wrongSize, fixedSize, hp]), ?_⟩
  dsimp only [bodyOf]
  split_ifs with empty far busy
  · rw [unpinBody_refuses (st := .badLength) (by simp [unpinChecks, firstFailure_cons, payloadRange, empty])]
    exact refused_at_once _ _ _ _ ho
  · rw [unpinBody_refuses (st := .outOfRange)
      (by simp [unpinChecks, firstFailure_cons, payloadRange, beyond_iff, empty, far])]
    exact refused_at_once _ _ _ _ ho
  · rw [unpinBody_refuses (st := .pinInProgress)
      (by simp [unpinChecks, firstFailure_cons, payloadRange, beyond_iff, overlapsPin_iff, empty, far, busy])]
    exact refused_at_once _ _ _ _ ho
  · rw [unpinBody_accepts (by simp [unpinChecks, firstFailure_cons, firstFailure_nil, payloadRange, beyond_iff,
        overlapsPin_iff, empty, far, busy]),
      afterTake_countWays]
    refine ⟨answered_of_linksSame _ ho (mapSets_linksSame _ _), fun i w => ?_, fun i => ⟨?_, ?_⟩, ?_, ?_, ⟨?_, ?_, ?_⟩, ?_,
      ?_⟩
    · rw [place_set, mapSets_set, afterTake_set, unpin_ways]
      rfl
    · rw [place_set, mapSets_set, afterTake_set, unpin_recency]
    · rw [place_set, mapSets_set, afterTake_set, unpin_claims]
    all_goals simp

/-! ### INVALIDATE -/

/-- Dropping ways, each once, puts them at the back in their order (R4). -/
theorem foldl_drop_recency (ws : List (Fin 4)) (c : CacheSet) (hr : c.recency.Nodup) (hw : ws.Nodup)
    (hm : ∀ w ∈ ws, w ∈ c.recency) :
    (ws.foldl CacheSet.drop c).recency = c.recency.filter (fun w => w ∉ ws) ++ ws := by
  induction ws generalizing c with
  | nil => simp
  | cons w ws ih =>
    obtain ⟨hn, hw⟩ := List.nodup_cons.mp hw
    have erased : c.recency.erase w = c.recency.filter (fun v => v ≠ w) := by
      rw [hr.erase_eq_filter]
      exact List.filter_congr fun v _ => by by_cases e : v = w <;> simp [e]
    have hd : (c.drop w).recency.Nodup := by
      rw [drop_recency]
      exact List.nodup_append_comm.mp (List.nodup_cons.mpr ⟨hr.not_mem_erase, hr.erase w⟩)
    rw [List.foldl_cons, ih (c.drop w) hd hw fun v hv => ?_]
    · have kept : (c.recency.filter (fun v => v ≠ w)).filter (fun v => v ∉ ws) =
          c.recency.filter (fun v => v ∉ w :: ws) := by
        rw [List.filter_filter]
        exact List.filter_congr fun v _ => by by_cases e : v = w <;> simp [e]
      rw [drop_recency, List.filter_append, erased, kept]
      simp [hn]
    · rw [drop_recency]
      by_cases e : v = w
      · exact List.mem_append_right _ (by simp [e])
      · exact List.mem_append_left _ ((List.mem_erase_of_ne e).mpr (hm v (List.mem_cons_of_mem _ hv)))

theorem discard_recency {c : CacheSet} (h : c.recencyOk) (i : Fin 128) (r : Range) :
    (c.discard i r).recency =
      c.recency.filter (fun w => !c.discardable i r w) ++ c.recency.filter (c.discardable i r) := by
  have nodup : c.recency.Nodup := h.nodup_iff.mpr (by decide)
  rw [CacheSet.discard, foldl_drop_recency _ c nodup (nodup.filter _) fun w hw => List.mem_of_mem_filter hw]
  congr 1
  refine List.filter_congr fun w hw => ?_
  simp [List.mem_filter, hw]

theorem clearRange_linksSame (s : State) (r : Range) : LinksSame s (s.clearRange r) := by
  refine ⟨?_, ?_, ?_, ?_, ?_, ?_⟩ <;> simp

theorem clearRange_counters (s : State) (r : Range) : (s.clearRange r).counters =
    { s.counters with doomedFill := s.counters.doomedFill + BitVec.ofNat 32 (s.doomable r) } := by
  simp only [State.clearRange, mapSets_counters]

/-- In a set with its ways in its recency list every discardable way goes. -/
theorem discard_ways_of_recencyOk {c : CacheSet} (h : c.recencyOk) (i : Fin 128) (r : Range) (w : Fin 4) :
    (c.discard i r).ways[w] = if c.discardable i r w then .invalid else c.ways[w] := by
  rw [discard_ways]
  simp only [h.symm.subset (mem_wayNumbers w), true_and]

theorem invalidateBody_refuses {q : Request} {s : State} {st : Status}
    (h : firstFailure (invalidateChecks q s) = some st) : invalidateBody q s = q.refuse .invalidate st s := by
  rw [invalidateBody, h]

theorem invalidateBody_accepts {q : Request} {s : State} (h : firstFailure (invalidateChecks q s) = none) :
    invalidateBody q s = (s.clearRange (payloadRange q.payload 4)).place q.link q.session
      (replyMessage .invalidate q.tag .ok
        (leBytes 2 (s.countWays (fun i c w => c.discardable i (payloadRange q.payload 4) w)) ++
          leBytes 2 (s.countWays (fun i c w => c.pinnedIn i (payloadRange q.payload 4) w)) ++
          leBytes 1 (s.doomable (payloadRange q.payload 4)))) := by
  rw [invalidateBody, h]
  rfl

/-- Settles O29: each check that fails refuses; else the discardable lines of the range are gone, its entries are doomed,
and the three kinds are counted. -/
theorem invalidateDiscardsAndDooms : Obligations.InvalidateDiscardsAndDooms := by
  intro l tag p s recency ht ho hp
  refine ⟨_, exec_request ht ho (by simp [wrongSize, fixedSize, hp]), ?_⟩
  dsimp only [bodyOf]
  split_ifs with empty far
  · rw [invalidateBody_refuses (st := .badLength) (by simp [invalidateChecks, firstFailure_cons, payloadRange, empty])]
    exact refused_at_once _ _ _ _ ho
  · rw [invalidateBody_refuses (st := .outOfRange)
      (by simp [invalidateChecks, firstFailure_cons, payloadRange, beyond_iff, empty, far])]
    exact refused_at_once _ _ _ _ ho
  · rw [invalidateBody_accepts
      (by simp [invalidateChecks, firstFailure_cons, firstFailure_nil, payloadRange, beyond_iff, empty, far]),
      afterTake_countWays, afterTake_countWays, afterTake_doomable]
    refine ⟨answered_of_linksSame _ ho (clearRange_linksSame _ _), fun i w => ?_, fun i => ⟨?_, ?_⟩, ?_, ?_, ?_,
      ⟨?_, ?_, ?_⟩, ?_⟩
    · rw [place_set, clearRange_set, afterTake_set, discard_ways_of_recencyOk (recency i)]
      rfl
    · rw [place_set, clearRange_set, afterTake_set, discard_claims]
    · rw [place_set, clearRange_set, afterTake_set, discard_recency (recency i)]
      rfl
    · rw [place_fills, clearRange_fills, afterTake_fills]
      rfl
    · rw [place_counters, clearRange_counters, afterTake_counters, afterTake_doomable]
      rfl
    all_goals simp

/-! ### PROBE_LINE -/

theorem probeBody_ok {q : Request} {s : State} (i : Fin 128) (w : Fin 4) (hi : field q.payload 0 1 = i)
    (hw : field q.payload 1 1 = w) : probeBody q s = q.accept .probeLine (lineRecord s i w) s := by
  simp [probeBody, hi, hw]

theorem probeBody_bad {q : Request} {s : State} (h : 127 < field q.payload 0 1 ∨ 3 < field q.payload 1 1) :
    probeBody q s = q.refuse .probeLine .badField s := by
  unfold probeBody
  dsimp only
  split
  · next hi =>
    rw [dif_neg (by omega)]
  · rfl

/-- The LINE RECORD as R19 lists it. -/
theorem lineRecord_eq (s : State) (i : Fin 128) (w : Fin 4) : lineRecord s i w =
    (match (s.set i).ways[w] with
      | .invalid => [(0 : Byte)] ++ leBytes 2 0 ++ leBytes 4 0 ++ [0]
      | .filling g => [(1 : Byte)] ++ leBytes 2 g ++ leBytes 4 (g * 8192 + i.val * 64) ++ [0]
      | .valid g pinned _ =>
        [(2 : Byte)] ++ leBytes 2 g ++ leBytes 4 (g * 8192 + i.val * 64) ++ [if pinned then 1 else 0]) ++
    leBytes 1 ((s.set i).recency.idxOf w) ++
    [(if (s.boundFill i w).isSome then 1 else 0 : Byte),
      match s.boundFill i w with
      | some f => if f.doomed then 1 else 0
      | none => 0] := by
  unfold lineRecord
  cases (s.set i).ways[w] <;> cases s.boundFill i w <;> rfl

/-- Settles O30: the way's record is the answer, or the number that is out of its range is refused. -/
theorem probeLineReportsTheWay : Obligations.ProbeLineReportsTheWay := by
  intro l tag i w s ht ho
  have hi : field [i, w] 0 1 = i.toNat := by simp [field, leNat]
  have hw : field [i, w] 1 1 = w.toNat := by simp [field, leNat]
  refine ⟨_, exec_request ht ho rfl, fun bad => ?_, fun si wi hsi hwi => ?_⟩
  · dsimp only [bodyOf]
    rw [probeBody_bad (by simpa only [hi, hw] using bad)]
    exact refused_at_once _ _ _ _ ho
  · dsimp only [bodyOf]
    rw [probeBody_ok si wi (hi.trans hsi.symm) (hw.trans hwi.symm), lineRecord_eq, State.boundFill, afterTake_set,
      afterTake_fills]
    exact ⟨answered_at_once s l _ ho, blocks_of_place s l _ _⟩

/-! ### After reset -/

theorem reset_set (i : Fin 128) : State.reset.set i = .reset := by simp [State.reset, State.set]

/-- Settles O3: the blocks' reset values, the sets through `reset_set`. -/
theorem resetValues : Obligations.ResetValues := by
  refine ⟨fun i w => ?_, rfl, rfl, rfl, rfl, rfl, by decide, by decide, rfl, rfl, rfl, rfl, rfl, rfl, rfl, rfl, rfl,
    fun l => ?_⟩
  · rw [reset_set]
    exact ⟨reset_way w, rfl, rfl⟩
  · cases l <;> exact ⟨rfl, rfl, rfl, rfl, rfl, rfl, rfl, rfl, rfl⟩

theorem recencyOk_reset : RecencyOk .reset := fun i => reset_set i ▸ reset_recencyOk

/-- Nothing is held where no job is. -/
theorem holdOk_reset : HoldOk .reset :=
  ⟨fun _ hj => absurd hj List.not_mem_nil, fun _ hq => absurd hq List.not_mem_nil, recencyOk_reset, List.nodup_nil,
    fun _ hf => absurd hf List.not_mem_nil, fun _ hf => absurd hf List.not_mem_nil,
    fun _ hr => absurd hr List.not_mem_nil, fun _ hj => absurd hj List.not_mem_nil⟩

theorem startingOk_reset : StartingOk .reset := by
  refine ⟨fun h => (by cases h), fun _ => ⟨rfl, rfl, rfl, rfl, rfl, rfl, fun x hx => (by cases hx), by decide, fun l => ?_⟩⟩
  cases l <;> exact ⟨rfl, rfl, rfl, rfl, by decide⟩

/-- Settles O54: every table is empty and the sets are `CacheSet.reset`. -/
theorem invariantsHoldAtReset : Obligations.InvariantsHoldAtReset := by
  refine ⟨⟨?_, ?_, fun h => (by cases h), fun h => (by cases h)⟩, ⟨⟨?_, fun _ => rfl⟩, ⟨?_, fun _ => rfl⟩⟩, recencyOk_reset,
    ⟨by decide, fun _ hj => absurd hj List.not_mem_nil⟩, ⟨by decide, by decide, by decide, by decide, by decide⟩,
    clear_cacheOk rfl reset_set, holdOk_reset, startingOk_reset⟩
  · unfold LinkState.slotsFit; decide
  · unfold LinkState.slotsFit; decide
  · exact fun _ hx => absurd hx List.not_mem_nil
  · exact fun _ hx => absurd hx List.not_mem_nil

end Sys2Proof.Machine
end

section
/-! PROOFS. CLOSE: the records of a session are removed with their waiters and the claims that they still hold. -/

namespace Sys2Proof.Machine

/-! ### Claims -/

/-- Dropping claims for lines, one after the other. -/
theorem foldl_dropClaim_set (as : List Nat) (s : State) (i : Fin 128) :
    (as.foldl State.dropClaim s).set i =
      { s.set i with claims := (s.set i).claims - (as.map setIndex).count i } := by
  induction as generalizing s with
  | nil => rfl
  | cons a as ih =>
    rw [List.foldl_cons, ih, List.map_cons]
    by_cases e : setIndex a = i
    · subst e
      rw [State.dropClaim, updSet_set, List.count_cons_self, Nat.add_comm, Nat.sub_add_eq]
    · rw [State.dropClaim, updSet_set_other _ _ _ _ e, List.count_cons_of_ne e]

/-- Dropping claims changes the cache alone. -/
theorem foldl_dropClaim_frame (as : List Nat) (s : State) :
    as.foldl State.dropClaim s = { s with cache := (as.foldl State.dropClaim s).cache } := by
  induction as generalizing s with
  | nil => rfl
  | cons a as ih => rw [List.foldl_cons, ih]; rfl

/-- The sets of the claims that a PIN still holds: of its lines that wait for a fill, a slot or a way (R12). -/
def Record.heldClaims (r : Record) : List (Fin 128) :=
  ((List.range r.needs.length).filter (fun n => r.needs[n]? = some .waitFill ||
    r.needs[n]? = some .waitSlot || r.needs[n]? = some .waitWay)).map
      (fun n => setIndex (lineAddress r.base + 64 * n))

/-- Three tests that exclude one another, met one after the other or together. -/
theorem count_filter_three {α β : Type} [BEq β] (p q t : α → Bool) (g : α → β) (b : β) (xs : List α)
    (hpq : ∀ x, p x = true → q x = false) (hpt : ∀ x, p x = true → t x = false) (hqt : ∀ x, q x = true → t x = false) :
    ((xs.filter p ++ xs.filter q ++ xs.filter t).map g).count b =
      ((xs.filter (fun x => p x || q x || t x)).map g).count b := by
  induction xs with
  | nil => rfl
  | cons x xs ih =>
    simp only [List.map_append, List.count_append] at ih ⊢
    cases hp : p x
    · cases hq : q x
      · cases ht : t x <;> simp [hp, hq, ht, List.count_cons] <;> omega
      · simp [hp, hq, hqt x hq, List.count_cons]; omega
    · simp [hp, hpq x hp, hpt x hp, List.count_cons]; omega

/-- The claims that a removed PIN gives back are those it holds. -/
theorem count_indexed (r : Record) (i : Fin 128) :
    (((r.indexed .waitFill ++ r.indexed .waitSlot ++ r.indexed .waitWay).map r.lineOf).map setIndex).count i =
      r.heldClaims.count i := by
  rw [List.map_map, Record.heldClaims]
  exact count_filter_three _ _ _ _ i _ (fun n h => by simp_all) (fun n h => by simp_all) (fun n h => by simp_all)

/-! ### Records removed -/

theorem removeRecord_records (s : State) (r : Record) :
    (removeRecord s r).records = s.records.filter (fun q => q.id ≠ r.id) := by
  unfold removeRecord
  cases r.kind
  · rfl
  · simp only
    rw [← List.foldl_map (f := r.lineOf) (g := State.dropClaim), foldl_dropClaim_frame]
    rfl

theorem removeRecord_fills (s : State) (r : Record) : (removeRecord s r).fills = (s.withdraw r.id).fills := by
  unfold removeRecord
  cases r.kind
  · rfl
  · simp only
    rw [← List.foldl_map (f := r.lineOf) (g := State.dropClaim), foldl_dropClaim_frame]

theorem removeRecord_set (s : State) (r : Record) (i : Fin 128) : (removeRecord s r).set i =
    { s.set i with claims := (s.set i).claims - if r.kind = .pin then r.heldClaims.count i else 0 } := by
  unfold removeRecord
  cases r.kind
  · rfl
  · simp only [if_true]
    rw [← List.foldl_map (f := r.lineOf) (g := State.dropClaim), ← count_indexed]
    exact foldl_dropClaim_set _ (s.withdraw r.id) i

/-- Removing a record changes records, cache and entries alone. -/
theorem removeRecord_frame (s : State) (r : Record) : removeRecord s r =
    { s with records := (removeRecord s r).records, cache := (removeRecord s r).cache,
             fills := (removeRecord s r).fills } := by
  unfold removeRecord
  cases r.kind
  · rfl
  · simp only
    rw [← List.foldl_map (f := r.lineOf) (g := State.dropClaim), foldl_dropClaim_frame]
    rfl

theorem foldl_removeRecord_records (rs : List Record) (s : State) :
    (rs.foldl removeRecord s).records = s.records.filter (fun q => ∀ r ∈ rs, q.id ≠ r.id) := by
  induction rs generalizing s with
  | nil => simp
  | cons r rs ih =>
    rw [List.foldl_cons, ih, removeRecord_records, List.filter_filter]
    exact List.filter_congr fun q _ => by simp [Bool.and_comm]

theorem foldl_removeRecord_fills (rs : List Record) (s : State) :
    (rs.foldl removeRecord s).fills =
      s.fills.map (fun f => { f with waiters := f.waiters.filter (fun w => ∀ r ∈ rs, w.id ≠ r.id) }) := by
  induction rs generalizing s with
  | nil => simp
  | cons r rs ih =>
    rw [List.foldl_cons, ih, removeRecord_fills, State.withdraw, List.map_map]
    refine List.map_congr_left fun f _ => ?_
    simp only [Function.comp, List.filter_filter]
    congr 1
    exact List.filter_congr fun w _ => by simp [Bool.and_comm]

theorem foldl_removeRecord_set (rs : List Record) (s : State) (i : Fin 128) :
    (rs.foldl removeRecord s).set i = { s.set i with
      claims := (s.set i).claims - ((rs.filter (fun r => r.kind = .pin)).flatMap Record.heldClaims).count i } := by
  induction rs generalizing s with
  | nil => rfl
  | cons r rs ih =>
    rw [List.foldl_cons, ih, removeRecord_set]
    by_cases h : r.kind = .pin
    · simp [h, List.count_append, Nat.sub_add_eq]
    · simp [h]

theorem foldl_removeRecord_frame (rs : List Record) (s : State) : rs.foldl removeRecord s =
    { s with records := (rs.foldl removeRecord s).records, cache := (rs.foldl removeRecord s).cache,
             fills := (rs.foldl removeRecord s).fills } := by
  induction rs generalizing s with
  | nil => rfl
  | cons r rs ih => rw [List.foldl_cons, ih, removeRecord_frame]

/-- With no two records of one tag, the records that go are those that are removed. -/
theorem filter_ids_eq {rs : List Record} (h : (rs.map Record.id).Nodup) (p : Record → Bool) :
    rs.filter (fun q => ∀ r ∈ rs.filter p, q.id ≠ r.id) = rs.filter (fun q => !p q) := by
  refine List.filter_congr fun q hq => ?_
  rw [Bool.eq_iff_iff]
  simp only [List.mem_filter, decide_eq_true_eq, Bool.not_eq_true']
  refine ⟨fun g => ?_, fun g r hr e => ?_⟩
  · by_contra hp
    exact g q ⟨hq, by simpa using hp⟩ rfl
  · have : q = r := List.inj_on_of_nodup_map h hq hr.1 e
    rw [this, hr.2] at g
    cases g

/-! ### CLOSE -/

theorem afterTake_keptAtClose (s : State) (l : Link) : (s.afterTake l).keptAtClose l = s.keptAtClose l := by
  cases l <;> rfl

/-- The state in which the records of a closing session are removed: the link is CLOSED. -/
def closedLink (s : State) (l : Link) (tag : Byte) : State :=
  (s.afterTake l).updLink l (fun k => k.close (s.keptAtClose l) (replyMessage .closeSession tag .ok []))

@[simp] theorem closedLink_link (s : State) (l : Link) (tag : Byte) : (closedLink s l tag).link l =
    (s.link l).take.close (s.keptAtClose l) (replyMessage .closeSession tag .ok []) := by
  rw [closedLink, updLink_link, afterTake_link]

theorem closedLink_elsewhere (s : State) (l : Link) (tag : Byte) : ElsewhereSame l s (closedLink s l tag) := by
  refine ⟨?_, ?_, ?_, ?_, ?_⟩ <;> cases l <;> rfl

/-- The state that CLOSE leaves. -/
def closed (s : State) (l : Link) (tag : Byte) : State :=
  (((closedLink s l tag).removeRecords l (s.link l).session).suppress l (s.link l).session).mute l (s.link l).session

/-- CLOSE leaves of links, ports, pins and the blocks behind them what the link's own part of it does. -/
theorem closed_frame (s : State) (l : Link) (tag : Byte) :
    LinksSame (closedLink s l tag) (closed s l tag) ∧ (closed s l tag).staging = s.staging ∧
    (closed s l tag).protection = s.protection ∧ (closed s l tag).counters = s.counters ∧
    (closed s l tag).jq.history = s.jq.history := by
  unfold closed State.removeRecords
  rw [foldl_removeRecord_frame]
  refine ⟨⟨rfl, rfl, rfl, rfl, rfl, rfl⟩, ?_, ?_, ?_, ?_⟩ <;> cases l <;> rfl

theorem closed_jobs (s : State) (l : Link) (tag : Byte) : (closed s l tag).jq.jobs = s.jq.jobs.map (fun j =>
    if j.origin = l ∧ j.session = (s.link l).session then { j with deliver := false } else j) := by
  unfold closed State.removeRecords
  rw [foldl_removeRecord_frame]
  cases l <;> rfl

theorem closed_fsq (s : State) (l : Link) (tag : Byte) : (closed s l tag).fsq = { s.fsq with
    pendingProfile := s.fsq.pendingProfile.map (fun p =>
      if p.link = l ∧ p.session = (s.link l).session then { p with muted := true } else p),
    resetRequests := s.fsq.resetRequests.map (fun q =>
      if q.link = l ∧ q.session = (s.link l).session then { q with muted := true } else q) } := by
  unfold closed State.removeRecords
  rw [foldl_removeRecord_frame]
  cases l <;> rfl

/-- The records of the session on a link. -/
def State.sessionRecords (s : State) (l : Link) : List Record :=
  s.records.filter (fun r => r.link = l && r.session = (s.link l).session)

theorem closed_readSide (s : State) (l : Link) (tag : Byte) :
    (closed s l tag).records = ((s.sessionRecords l).foldl removeRecord (closedLink s l tag)).records ∧
    (closed s l tag).fills = ((s.sessionRecords l).foldl removeRecord (closedLink s l tag)).fills ∧
    ∀ i, (closed s l tag).set i = ((s.sessionRecords l).foldl removeRecord (closedLink s l tag)).set i := by
  have : (closedLink s l tag).records = s.records := by simp [closedLink]
  unfold closed State.removeRecords
  rw [this]
  exact ⟨rfl, rfl, fun _ => rfl⟩

/-- Settles O17: the link is closed, the session's records are removed, its jobs SUPPRESSED and its put-off replies
muted. -/
theorem closeEndsTheSession : Obligations.CloseEndsTheSession := by
  intro l tag s tags ht ho
  have body : bodyOf .closeSession { link := l, session := (s.link l).session, tag := tag, payload := [] }
      (s.afterTake l) = closed s l tag := by
    rw [bodyOf, closeBody, afterTake_keptAtClose]
    rfl
  refine ⟨closed s l tag, body ▸ exec_request ht ho rfl, ?_⟩
  obtain ⟨links, staging, protection, counters, history⟩ := closed_frame s l tag
  obtain ⟨records, fills, sets⟩ := closed_readSide s l tag
  have others := (closedLink_elsewhere s l tag).trans links
  have same_set : ∀ i, (closedLink s l tag).set i = s.set i := fun i => set_eq_of_cache (by simp [closedLink]) i
  refine ⟨?_, ?_, ?_, ?_, ?_, ?_, others, ?records, fun i => ?ways, ?entries, ?waiters, closed_jobs s l tag, history, staging,
    protection, counters, fun i => ?claims, closed_fsq s l tag⟩
  case records =>
    rw [records, foldl_removeRecord_records, show (closedLink s l tag).records = s.records by simp [closedLink]]
    exact filter_ids_eq tags _
  case ways =>
    rw [sets, foldl_removeRecord_set, same_set]
    exact ⟨rfl, rfl⟩
  case entries =>
    rw [fills, foldl_removeRecord_fills, List.map_map, show (closedLink s l tag).fills = s.fills by simp [closedLink]]
    rfl
  case waiters =>
    intro f hf w hw r hr e own
    rw [fills, foldl_removeRecord_fills] at hf
    obtain ⟨g, -, rfl⟩ := List.mem_map.mp hf
    have := (List.mem_filter.mp hw).2
    simp only [decide_eq_true_eq] at this
    exact this r (List.mem_filter.mpr ⟨hr, by simpa using own⟩) e.symm
  case claims =>
    rw [sets, foldl_removeRecord_set, same_set, State.sessionRecords, List.filter_filter]
    simp only [← Bool.and_assoc]
    rfl
  all_goals
    rw [links.link, closedLink_link]
    rfl

end Sys2Proof.Machine
end

section
/-! PROOFS. The read path for one record with one need: it is looked up, waits, and is answered. -/

namespace Sys2Proof.Machine

/-! ### The record that stands last -/

/-- A record stands last in acceptance order, and it alone has its link and tag. -/
def State.HasLast (s : State) (rs : List Record) (r : Record) : Prop :=
  s.records = rs ++ [r] ∧ ∀ q ∈ rs, q.id ≠ r.id

theorem State.HasLast.of_records {s t : State} {rs : List Record} {r : Record} (h : s.HasLast rs r)
    (e : t.records = s.records) : t.HasLast rs r := ⟨e.trans h.1, h.2⟩

section HasLast

variable {s : State} {rs : List Record} {r : Record} (h : s.HasLast rs r)
include h

theorem record_of_last : s.record r.id = some r := by
  have : rs.find? (fun q => q.id = r.id) = none := List.find?_eq_none.mpr fun q hq => by simpa using h.2 q hq
  rw [State.record, h.1, List.find?_append, this]
  simp

theorem updRecord_of_last (f : Record → Record) : s.updRecord r.id f = { s with records := rs ++ [f r] } := by
  have : rs.map (fun q => if q.id = r.id then f q else q) = rs :=
    (List.map_congr_left fun q hq => if_neg (h.2 q hq)).trans (List.map_id rs)
  rw [State.updRecord, h.1, List.map_append, this]
  simp

theorem setNeed_of_last {n : NeedState} (hn : r.needs = [n]) (m : NeedState) :
    s.setNeed ⟨r.id, 0⟩ m = { s with records := rs ++ [{ r with needs := [m] }] } := by
  rw [State.setNeed, updRecord_of_last h, Record.setNeed, hn]
  rfl

theorem complete_of_last : s.complete r =
    ({ s.withdraw r.id with records := rs } : State).place r.link r.session r.reply := by
  have : rs.filter (fun q => q.id ≠ r.id) = rs := List.filter_eq_self.mpr fun q hq => by simpa using h.2 q hq
  unfold State.complete
  dsimp only
  rw [withdraw_records, h.1, List.filter_append, this]
  simp

/-- A record that has its outcome is answered and freed. -/
theorem settle_of_last (hc : r.isComplete = true) : s.settle r.id =
    ({ s.withdraw r.id with records := rs } : State).place r.link r.session r.reply := by
  rw [State.settle, record_of_last h]
  simp only [hc, if_true]
  exact complete_of_last h

/-- A record that has not stands. -/
theorem settle_of_last_waiting (hc : r.isComplete = false) : s.settle r.id = s := by
  rw [State.settle, record_of_last h]
  simp [hc]

end HasLast

/-- No pair of the record waits on an entry. -/
theorem withdraw_eq_self {s : State} {id : RecordId} (h : ∀ f ∈ s.fills, ∀ w ∈ f.waiters, w.id ≠ id) :
    s.withdraw id = s := by
  have : s.fills.map (fun f => { f with waiters := f.waiters.filter (fun w => w.id ≠ id) }) = s.fills := by
    refine (List.map_congr_left fun f hf => ?_).trans (List.map_id _)
    have : f.waiters.filter (fun w => w.id ≠ id) = f.waiters := List.filter_eq_self.mpr fun w hw => by
      simpa using h f hf w hw
    rw [this]
    rfl
  rw [State.withdraw, this]

/-- Every waiter is a need of a record, so a tag that is not in use waits on no entry. -/
theorem no_waiter_of_fresh {s : State} (h : WaitersOk s) {id : RecordId} (fresh : ∀ q ∈ s.records, q.id ≠ id) :
    ∀ f ∈ s.fills, ∀ w ∈ f.waiters, w.id ≠ id := by
  intro f hf w hw e
  obtain ⟨r, hr, hid, -⟩ := h f hf w hw
  exact fresh r hr (hid.trans e)

/-! ### The slot queue -/

theorem needsIn_eq_nil {s : State} {n : NeedState} (h : ∀ r ∈ s.records, n ∉ r.needs) : s.needsIn n = [] := by
  rw [State.needsIn, List.flatMap_eq_nil_iff]
  intro r hr
  have : r.indexed n = [] := List.filter_eq_nil_iff.mpr fun i _ hi => by
    simp only [decide_eq_true_eq] at hi
    exact h r hr (List.mem_of_getElem? hi)
  rw [this]
  rfl

theorem gather_eq_self {s : State} (h : ∀ r ∈ s.records, NeedState.waitSlot ∉ r.needs) (a : Nat) : s.gather a = s := by
  rw [State.gather, State.slotQueue, needsIn_eq_nil h]
  rfl

/-- An entry is created for the one need of a record while no need waits for a slot. -/
theorem createFill_of_last {s : State} {rs : List Record} {r : Record} (h : s.HasLast rs r) {n : NeedState}
    (hn : r.needs = [n]) (hs : ∀ q ∈ rs, NeedState.waitSlot ∉ q.needs) (a : Nat) (v : Option (Fin 4)) :
    s.createFill a v ⟨r.id, 0⟩ = { s with
      records := rs ++ [{ r with needs := [.waitFill] }], fills := s.fills ++ [freshFill a v ⟨r.id, 0⟩] } := by
  show (State.setNeed { s with fills := s.fills ++ [freshFill a v ⟨r.id, 0⟩] } _ _).gather a = _
  rw [setNeed_of_last (h.of_records (by rfl)) hn]
  refine gather_eq_self (fun q hq => ?_) a
  rcases List.mem_append.mp hq with hq | hq
  · exact hs q hq
  · rw [List.mem_singleton.mp hq]
    simp

/-! ### A lookup of the one need -/

/-- A lookup that hits. -/
theorem lookup_hit_read {s : State} {rs : List Record} {r : Record} (h : s.HasLast rs r) (hk : r.kind = .read) {i : Nat}
    {v : Fin 4} (hit : (s.set (setIndex (r.lineOf i))).hit (cacheTag (r.lineOf i)) = some v) :
    s.lookup ⟨r.id, i⟩ = s.hitRead r i v := by
  rw [State.lookup, record_of_last h]
  simp only [hit, hk]

theorem lookup_hit_pin {s : State} {rs : List Record} {r : Record} (h : s.HasLast rs r) (hk : r.kind = .pin) {i : Nat}
    {v : Fin 4} (hit : (s.set (setIndex (r.lineOf i))).hit (cacheTag (r.lineOf i)) = some v) :
    s.lookup ⟨r.id, i⟩ = s.hitPin r i v := by
  rw [State.lookup, record_of_last h]
  simp only [hit, hk]

/-- A lookup that misses. -/
theorem lookup_miss {s : State} {rs : List Record} {r : Record} (h : s.HasLast rs r) {i : Nat}
    (miss : (s.set (setIndex (r.lineOf i))).hit (cacheTag (r.lineOf i)) = none) :
    s.lookup ⟨r.id, i⟩ = s.missNeed r ⟨r.id, i⟩ := by
  rw [State.lookup, record_of_last h]
  simp only [miss]

/-- Where a miss creates an entry: FSQ is not FAULTED, the line has no entry and one is free. -/
theorem missNeed_creates {s : State} (r : Record) (w : Waiter) (hf : s.fsq.state ≠ .faulted)
    (fresh : ∀ f ∈ s.fills, f.line ≠ r.lineOf w.index) (free : s.fills.length < 8) :
    s.missNeed r w = s.countMiss.missCreate r w := by
  have none : s.countMiss.fill (r.lineOf w.index) = none := List.find?_eq_none.mpr fun f hm => by simpa using fresh f hm
  have room : s.countMiss.fillFree = true := decide_eq_true free
  have running : s.countMiss.fsq.state ≠ .faulted := hf
  unfold State.missNeed
  dsimp only
  rw [if_neg running, none, room]
  rfl

/-- The cache once a miss has a way allocated, if there is a victim. -/
def State.allocated (s : State) (a : Nat) : Vector CacheSet 128 :=
  match (s.set (setIndex a)).victim with
  | some v => (s.updSet (setIndex a) (fun c => c.allocate v (cacheTag a))).cache
  | none => s.cache

/-- The one need of a record has missed and created the entry of its line (R44). -/
def State.entered (s : State) (rs : List Record) (r : Record) : State :=
  { s with
    records := rs ++ [{ r with needs := [.waitFill] }]
    cache := s.allocated (r.lineOf 0)
    fills := s.fills ++ [freshFill (r.lineOf 0) (s.set (setIndex (r.lineOf 0))).victim ⟨r.id, 0⟩]
    counters := { s.counters with
      lookupMiss := s.counters.lookupMiss + 1
      bypassFill := s.counters.bypassFill +
        (if (s.set (setIndex (r.lineOf 0))).victim = none then 1 else 0) } }

theorem count_add_zero (c : Count) : c + 0 = c := BitVec.add_zero c

/-- A miss that creates an entry, for a READ or with a victim. -/
theorem missCreate_of_last {s : State} {rs : List Record} {r : Record} (h : s.HasLast rs r) {n : NeedState}
    (hn : r.needs = [n]) (hs : ∀ q ∈ rs, NeedState.waitSlot ∉ q.needs)
    (hk : r.kind = .read ∨ (s.set (setIndex (r.lineOf 0))).victim ≠ none) :
    s.countMiss.missCreate r ⟨r.id, 0⟩ = s.entered rs r := by
  have same : s.countMiss.set (setIndex (r.lineOf 0)) = s.set (setIndex (r.lineOf 0)) := rfl
  unfold State.missCreate State.entered State.allocated
  dsimp only
  rw [same]
  cases hv : (s.set (setIndex (r.lineOf 0))).victim with
  | some v =>
    dsimp only
    rw [createFill_of_last (h.of_records (by rfl)) hn hs, if_neg (by simp), count_add_zero]
    rfl
  | none =>
    obtain hk | hk := hk
    · dsimp only
      rw [createFill_of_last (h.of_records (by rfl)) hn hs, if_pos rfl]
      split
      · rfl
      · next e => cases e.symm.trans hk
    · exact absurd hv hk

/-- A PIN's miss with no victim waits for a way (R44). -/
theorem missCreate_waits {s : State} {rs : List Record} {r : Record} (h : s.HasLast rs r) {n : NeedState}
    (hn : r.needs = [n]) (hk : r.kind = .pin) (hv : (s.set (setIndex (r.lineOf 0))).victim = none) :
    s.countMiss.missCreate r ⟨r.id, 0⟩ = { s.countMiss with records := rs ++ [{ r with needs := [.waitWay] }] } := by
  have same : s.countMiss.set (setIndex (r.lineOf 0)) = s.set (setIndex (r.lineOf 0)) := rfl
  unfold State.missCreate
  dsimp only
  rw [same, hv]
  dsimp only
  split
  · next e => cases e.symm.trans hk
  · exact setNeed_of_last (h.of_records (by rfl)) hn .waitWay

end Sys2Proof.Machine
end

section
/-! PROOFS. READ and PIN of one line. -/

namespace Sys2Proof.Machine

/-! ### Addresses of one line -/

theorem setIndex_lineAddress (a : Nat) : setIndex (lineAddress a) = setIndex a := by
  apply Fin.ext
  simp only [setIndex, lineAddress]
  omega

theorem cacheTag_lineAddress (a : Nat) : cacheTag (lineAddress a) = cacheTag a := by
  simp only [cacheTag, lineAddress]
  omega

theorem lineOf_zero (r : Record) : r.lineOf 0 = lineAddress r.base := by simp [Record.lineOf]

/-- A range inside one line spans one line. -/
theorem lineCount_one {base length : Nat} (hl : 0 < length) (h : base % 64 + length ≤ 64) :
    lineCount base length = 1 := by
  unfold lineCount
  omega

/-! ### The bytes of one line -/

theorem filterMap_getElem?_range (data : List Byte) (b n : Nat) :
    (List.range n).filterMap (fun k => data[b + k]?) = (data.drop b).take n := by
  induction n with
  | zero => rfl
  | succ n ih =>
    rw [List.range_succ, List.filterMap_append, ih, List.take_add_one, List.getElem?_drop]
    cases h : data[b + n]? <;> simp [h]

/-- A READ of bytes of one line gathers them all from that line (R35). -/
theorem gathered_copyLine {r : Record} (hb : r.buffer.length = r.length) (h : r.base % 64 + r.length ≤ 64)
    (data : List Byte) : (r.copyLine 0 data).gathered = (data.drop (r.base % 64)).take r.length := by
  have places : (r.copyLine 0 data).buffer = (List.range r.length).map (fun k => data[r.base % 64 + k]?) := by
    refine List.ext_getElem (by simp [Record.copyLine, hb]) fun k hk _ => ?_
    have hk : k < r.length := by simpa [Record.copyLine, hb] using hk
    have line : lineAddress (r.base + k) = r.lineOf 0 := by
      rw [lineOf_zero]
      simp only [lineAddress]
      omega
    have place : (r.base + k) % 64 = r.base % 64 + k := by omega
    simp [Record.copyLine, line, place]
  rw [Record.gathered, places, List.filterMap_map, ← filterMap_getElem?_range]
  rfl

/-! ### A record of one need that has its outcome -/

/-- A change of a record that gives it its outcome has it answered and freed. -/
theorem settle_updRecord {s : State} {rs : List Record} {r : Record} (h : s.HasLast rs r) (f : Record → Record)
    (hid : (f r).id = r.id) (hc : (f r).isComplete = true) (hw : ∀ g ∈ s.fills, ∀ w ∈ g.waiters, w.id ≠ r.id) :
    (s.updRecord r.id f).settle r.id =
      ({ s with records := rs } : State).place (f r).link (f r).session (f r).reply := by
  have last : ({ s with records := rs ++ [f r] } : State).HasLast rs (f r) := ⟨rfl, fun q hq => hid ▸ h.2 q hq⟩
  have stands : ({ s with records := rs ++ [f r] } : State).withdraw r.id = { s with records := rs ++ [f r] } :=
    withdraw_eq_self hw
  rw [updRecord_of_last h, ← hid, settle_of_last last hc, hid, stands]

/-- A READ of one line has its bytes, and is answered (R36). -/
theorem settle_read {s : State} {rs : List Record} {r : Record} (h : s.HasLast rs r) {n : NeedState}
    (hn : r.needs = [n]) (hk : r.kind = .read) (hst : r.status = .ok) (hb : r.buffer.length = r.length)
    (hr : r.base % 64 + r.length ≤ 64) (hw : ∀ f ∈ s.fills, ∀ w ∈ f.waiters, w.id ≠ r.id) (data : List Byte) :
    (s.updRecord r.id (fun q => (q.copyLine 0 data).setNeed 0 .haveLine)).settle r.id =
      ({ s with records := rs } : State).place r.link r.session
        (replyMessage .read r.tag .ok ((data.drop (r.base % 64)).take r.length)) := by
  have done : ((r.copyLine 0 data).setNeed 0 .haveLine).isComplete = true := by
    simp [Record.isComplete, Record.setNeed, Record.copyLine, hk, hn]
  have reply : ((r.copyLine 0 data).setNeed 0 .haveLine).reply =
      replyMessage .read r.tag .ok ((data.drop (r.base % 64)).take r.length) := by
    have kind : ((r.copyLine 0 data).setNeed 0 .haveLine).kind = .read := hk
    have status : ((r.copyLine 0 data).setNeed 0 .haveLine).status = .ok := hst
    rw [← gathered_copyLine hb hr data]
    unfold Record.reply
    simp only [kind, status, if_true]
    rfl
  rw [settle_updRecord h _ rfl done hw, reply]
  rfl

/-- A PIN of one line has it, and is answered with its count (R37). -/
theorem settle_pin {s : State} {rs : List Record} {r : Record} (h : s.HasLast rs r) {n : NeedState}
    (hn : r.needs = [n]) (hk : r.kind = .pin) (hw : ∀ f ∈ s.fills, ∀ w ∈ f.waiters, w.id ≠ r.id) :
    (s.updRecord r.id (fun q => { q.setNeed 0 .haveLine with pinnedCount := q.pinnedCount + 1 })).settle r.id =
      ({ s with records := rs } : State).place r.link r.session
        (replyMessage .pin r.tag r.status (leBytes 2 (r.pinnedCount + 1))) := by
  rw [settle_updRecord h _ rfl (by simp [Record.isComplete, Record.setNeed, hk, hn]) hw]
  simp [Record.reply, Record.setNeed, hk]

/-! ### A READ of one line is accepted -/

theorem firstFailure_eq_none {cs : List (Bool × Status)} : firstFailure cs = none ↔ ∀ c ∈ cs, c.1 = false := by
  simp [firstFailure, List.find?_eq_none]

theorem tagInUse_eq_false {q : Request} {s : State} :
    s.tagInUse q = false ↔ ∀ r ∈ s.records, r.id ≠ { link := q.link, tag := q.tag } := by
  simp [State.tagInUse, State.record, List.find?_eq_none]

@[simp] theorem afterTake_tagInUse (s : State) (l : Link) (q : Request) : (s.afterTake l).tagInUse q = s.tagInUse q := by
  simp [State.tagInUse, State.record]

@[simp] theorem afterTake_tableBusy (s : State) (l k : Link) : (s.afterTake l).tableBusy k = s.tableBusy k := by
  rw [State.tableBusy, State.recordsOf, afterTake_records]
  rfl

@[simp] theorem afterTake_overlapsHold (s : State) (l : Link) (r : Range) :
    (s.afterTake l).overlapsHold r = s.overlapsHold r := by simp [State.overlapsHold, State.holds]

/-- What the words `plainRead` say of the request and the state. -/
structure PlainRead (l : Link) (tag : Byte) (p : List Byte) (s : State) : Prop where
  takes : s.takesRequest .read l tag p = true
  isOpen : (s.link l).isOpen = true
  size : p.length = 6
  checks : firstFailure (readChecks { link := l, session := (s.link l).session, tag := tag, payload := p } s) = none
  noHold : s.overlapsHold { base := field p 0 4, length := field p 4 2 } = false
  oneLine : field p 0 4 % 64 + field p 4 2 ≤ 64
  length : 0 < field p 4 2
  fresh : ∀ r ∈ s.records, r.id ≠ { link := l, tag := tag }

theorem plainRead_iff {l : Link} {tag : Byte} {p : List Byte} {s : State} (h : plainRead l tag p s = true) :
    PlainRead l tag p s := by
  simp only [plainRead, Bool.and_eq_true, decide_eq_true_eq, Bool.not_eq_true', Option.isNone_iff_eq_none] at h
  obtain ⟨⟨⟨⟨⟨takes, isOpen⟩, size⟩, checks⟩, noHold⟩, oneLine⟩ := h
  have passed := firstFailure_eq_none.mp checks
  simp only [readChecks, List.forall_mem_cons, Bool.or_eq_false_iff, decide_eq_false_iff_not] at passed
  obtain ⟨⟨nonempty, -⟩, -, unused, -⟩ := passed
  exact ⟨takes, isOpen, size, checks, noHold, oneLine, Nat.pos_of_ne_zero nonempty, tagInUse_eq_false.mp unused⟩

/-- The record is the last one of the table, and none other has its tag. -/
theorem addRecord_last {s : State} {r : Record} (h : ∀ q ∈ s.records, q.id ≠ r.id) :
    (s.addRecord r).HasLast s.records r := ⟨rfl, h⟩

theorem newRecord_read {l : Link} {tag : Byte} {p : List Byte} {s : State} (h : PlainRead l tag p s) :
    newRecord { link := l, session := (s.link l).session, tag := tag, payload := p } .read (payloadRange p 2) =
      waitingRead l tag p .waitRelease s := by
  simp [newRecord, payloadRange, waitingRead, lineCount_one h.length h.oneLine]

/-- A READ of one line joins the table and its line is looked up (R29). -/
theorem exec_plainRead {l : Link} {tag : Byte} {p : List Byte} {s : State} (h : PlainRead l tag p s) :
    exec (.read l.arrival tag p) s = .next (kickIfCreated (s.afterTake l)
      ((((s.afterTake l).addRecord (waitingRead l tag p .waitRelease s)).lookup
        ⟨(waitingRead l tag p .waitRelease s).id, 0⟩).settle (waitingRead l tag p .waitRelease s).id)) := by
  have checks : firstFailure (readChecks { link := l, session := (s.link l).session, tag := tag, payload := p }
      (s.afterTake l)) = none := by
    simpa only [readChecks, afterTake_beyond, afterTake_tagInUse, afterTake_tableBusy] using h.checks
  have hold : (s.afterTake l).overlapsHold (payloadRange p 2) = false := by
    rw [afterTake_overlapsHold]; exact h.noHold
  refine (exec_request h.takes h.isOpen (by simp [wrongSize, fixedSize, h.size])).trans ?_
  dsimp only [bodyOf]
  rw [readBody, checks]
  dsimp only
  rw [State.acceptRead, newRecord_read h, hold]
  rfl

/-- An event that creates no entry leaves FSQ as it is. -/
theorem kickIfCreated_eq_self {s t : State} (h : t.fills = s.fills) : kickIfCreated s t = t := by
  rw [kickIfCreated, h, if_neg (Nat.lt_irrefl _)]

@[simp] theorem addRecord_set (s : State) (r : Record) (i : Fin 128) : (s.addRecord r).set i = s.set i := rfl

@[simp] theorem countHit_set (s : State) (i : Fin 128) : s.countHit.set i = s.set i := rfl
@[simp] theorem countHit_counters (s : State) :
    s.countHit.counters = { s.counters with lookupHit := s.counters.lookupHit + 1 } := rfl

/-- A hit, and its count, before the bytes go to the record. -/
theorem hitRead_eq (s : State) (r : Record) (i : Nat) (w : Fin 4) : s.hitRead r i w =
    ((s.updSet (setIndex (r.lineOf i)) (fun c => c.toFront w)).countHit).updRecord r.id
      (fun q => (q.copyLine i ((s.set (setIndex (r.lineOf i))).ways[w]).bytes).setNeed i .haveLine) := rfl

/-- The set and the tag of a record of one line. -/
theorem setIndex_lineOf_zero {r : Record} {a : Nat} (h : r.base = a) : setIndex (r.lineOf 0) = setIndex a := by
  rw [lineOf_zero, setIndex_lineAddress, h]

theorem cacheTag_lineOf_zero {r : Record} {a : Nat} (h : r.base = a) : cacheTag (r.lineOf 0) = cacheTag a := by
  rw [lineOf_zero, cacheTag_lineAddress, h]

/-- The record of a READ of one line as it is looked up. -/
theorem waitingRead_last {l : Link} {tag : Byte} {p : List Byte} {s : State} (h : PlainRead l tag p s) (n : NeedState) :
    ((s.afterTake l).addRecord (waitingRead l tag p n s)).HasLast s.records (waitingRead l tag p n s) := by
  rw [← afterTake_records s l]
  exact addRecord_last (by rw [afterTake_records]; exact h.fresh)

/-- The one need of a READ hits, and the READ is answered (R5, R35, R36). -/
theorem settle_hit_read {s : State} {rs : List Record} {r : Record} (h : s.HasLast rs r) {n : NeedState}
    (hn : r.needs = [n]) (hk : r.kind = .read) (hst : r.status = .ok) (hb : r.buffer.length = r.length)
    (hr : r.base % 64 + r.length ≤ 64) (hw : ∀ f ∈ s.fills, ∀ w ∈ f.waiters, w.id ≠ r.id) {v : Fin 4}
    (hit : (s.set (setIndex r.base)).hit (cacheTag r.base) = some v) :
    (s.lookup ⟨r.id, 0⟩).settle r.id =
      ({ (s.updSet (setIndex r.base) (fun c => c.toFront v)).countHit with records := rs } : State).place r.link r.session
        (replyMessage .read r.tag .ok
          (((((s.set (setIndex r.base)).ways[v]).bytes).drop (r.base % 64)).take r.length)) := by
  have set := setIndex_lineOf_zero (r := r) rfl
  rw [lookup_hit_read h hk (v := v) (by rw [set, cacheTag_lineOf_zero (r := r) rfl]; exact hit), hitRead_eq, set]
  exact settle_read (s := (s.updSet (setIndex r.base) (fun c => c.toFront v)).countHit) (h.of_records rfl) hn hk hst hb hr
    hw _

/-- A READ of one line that hits is answered at once. -/
theorem plainRead_hit {l : Link} {tag : Byte} {p : List Byte} {w : Fin 4} {s : State} (h : PlainRead l tag p s)
    (waiters : WaitersOk s) (hit : (s.set (setIndex (field p 0 4))).hit (cacheTag (field p 0 4)) = some w) :
    exec (.read l.arrival tag p) s = .next
      (((s.afterTake l).updSet (setIndex (field p 0 4)) (fun c => c.toFront w)).countHit.place l (s.link l).session
        (replyMessage .read tag .ok
          (((((s.set (setIndex (field p 0 4))).ways[w]).bytes).drop (field p 0 4 % 64)).take (field p 4 2)))) := by
  have unused : ∀ f ∈ (s.afterTake l).fills, ∀ x ∈ f.waiters, x.id ≠ (waitingRead l tag p .waitRelease s).id := by
    rw [afterTake_fills]
    exact no_waiter_of_fresh waiters h.fresh
  rw [exec_plainRead h, settle_hit_read (waitingRead_last h .waitRelease) rfl rfl rfl (List.length_replicate ..) h.oneLine
    unused (v := w) (by rw [addRecord_set, afterTake_set]; exact hit), kickIfCreated_eq_self (by rw [place_fills]; rfl),
    addRecord_set, afterTake_set]
  have records : s.records = (s.afterTake l).records := (afterTake_records s l).symm
  conv_lhs => rw [records]
  rfl

/-- Settles O24: the one lookup hits, so the record is complete at once and no entry is created. -/
theorem readHitIsAnsweredAtOnce : Obligations.ReadHitIsAnsweredAtOnce := by
  intro l tag p w s waiters plain hit
  have h := plainRead_iff plain
  refine ⟨_, plainRead_hit h waiters hit, answered_of_linksSame _ h.isOpen ⟨rfl, rfl, rfl, rfl, rfl, rfl⟩, ?line,
    fun i hi => ?others, ?_, ?_, ⟨?_, ?_, ?_⟩, ?_, ?counters⟩
  case line =>
    rw [place_set, countHit_set, updSet_set, afterTake_set]
    rfl
  case others => rw [place_set, countHit_set, updSet_set_other _ _ _ _ (Ne.symm hi), afterTake_set]
  case counters => rw [place_counters, countHit_counters, updSet_counters, afterTake_counters]
  all_goals simp [State.countHit]

end Sys2Proof.Machine
end

section
/-! PROOFS. What FSQ does of itself, and a READ of one line that misses. -/

namespace Sys2Proof.Machine

/-! ### Serving an entry and starting a job -/

/-- Only the Fill Table, the Job Queue and FSQ may differ. -/
def State.FlashSideOnly (s t : State) : Prop := t = { s with fills := t.fills, jq := t.jq, fsq := t.fsq }

namespace State.FlashSideOnly

theorem refl (s : State) : s.FlashSideOnly s := rfl

variable {s t : State} (h : s.FlashSideOnly t)
include h

theorem records : t.records = s.records := by rw [h]
theorem cache : t.cache = s.cache := by rw [h]
theorem counters : t.counters = s.counters := by rw [h]
theorem staging : t.staging = s.staging := by rw [h]
theorem protection : t.protection = s.protection := by rw [h]
theorem links : LinksSame s t := by rw [h]; exact ⟨rfl, rfl, rfl, rfl, rfl, rfl⟩

end State.FlashSideOnly

theorem beginFill_eq (s : State) (f : Fill) :
    s.beginFill f = { s with fills := transferring f.line s.fills, fsq := s.fsq.reads f.line } := rfl

theorem serveFill_eq (s : State) (f : Fill) : s.serveFill f =
    { s with
      fills := transferring f.line s.fills
      fsq := { s.fsq.reads f.line with
        state := .reading
        burst := if s.headQueued then s.fsq.burst + 1 else s.fsq.burst } } := rfl

theorem startJob_eq (s : State) (j : Job) : s.startJob j =
    { s with
      jq := { s.jq with jobs := s.jq.jobs.modifyHead (fun k => { k with phase := some .issue }) }
      fsq := { s.fsq.sending (s.firstTransaction j) with state := .job, burst := 0 } } := rfl

theorem serveOldest_of_none {s : State} (h : s.oldestWaiting = none) : s.serveOldest = s := by
  rw [State.serveOldest, h]

theorem serveOldest_of_some {s : State} {f : Fill} (h : s.oldestWaiting = some f) : s.serveOldest = s.serveFill f := by
  rw [State.serveOldest, h]

theorem choose_of_no_job {s : State} (h : s.head = none) : s.choose = s.serveOldest := by
  rw [State.choose, h]

/-- With a QUEUED job as head an entry is served unless the burst is at its limit (R101, R103). -/
theorem choose_of_burst_ne {s : State} {j : Job} {f : Fill} (hj : s.head = some j) (hf : s.oldestWaiting = some f)
    (hb : s.fsq.burst ≠ 8) : s.choose = s.serveFill f := by
  have : decide (s.fsq.burst = burstLimit) = false := decide_eq_false hb
  rw [State.choose, hj]
  simp [hf, this, serveOldest_of_some hf]

theorem choose_of_burst_eq {s : State} {j : Job} (hj : s.head = some j) (hp : j.phase = none)
    (hb : s.fsq.burst = 8) : s.choose = s.startJob j := by
  have : decide (s.fsq.burst = burstLimit) = true := decide_eq_true hb
  rw [State.choose, hj]
  simp [hp, this]

theorem serveOldest_flashSide (s : State) : s.FlashSideOnly s.serveOldest := by
  rw [State.serveOldest]
  split
  · rfl
  · exact .refl s

theorem choose_flashSide (s : State) : s.FlashSideOnly s.choose := by
  rw [State.choose]
  split
  · split
    · rfl
    · exact serveOldest_flashSide s
  · exact serveOldest_flashSide s

theorem applyProfile_eq_self {s : State} (h : s.fsq.pendingProfile = none) : s.applyProfile = s := by
  rw [State.applyProfile, h]

theorem arbitrate_of_none {s : State} (h : s.fsq.pendingProfile = none) : s.arbitrate = s.choose := by
  rw [State.arbitrate, applyProfile_eq_self h]

theorem kick_of_port {s : State} (h : s.fsq.port.isSome = true) : s.kick = s := by
  rw [State.kick, if_pos h]

theorem kick_of_ready {s : State} (hp : s.fsq.port = none) (hs : s.fsq.state = .ready)
    (hq : s.fsq.pendingProfile = none) : s.kick = s.choose := by
  rw [State.kick, if_neg (by simp [hp]), hs]
  exact arbitrate_of_none hq

/-- A job that is head and not RUNNING is QUEUED. -/
theorem phase_of_not_running {s : State} {j : Job} (hj : s.head = some j) (hr : s.running = none) : j.phase = none := by
  simpa [State.running, hj] using hr

theorem headQueued_of_head {s : State} {j : Job} (hj : s.head = some j) (hp : j.phase = none) : s.headQueued = true := by
  simp [State.headQueued, hj, hp]

/-- The write-enable of the job, or the descriptor of a RAW job without one, is on the port (R104, R107). -/
theorem startJob_jobStarted {s : State} {j : Job} (hj : s.head = some j) : JobStarted j s.fsq (s.startJob j) := by
  obtain ⟨js, hjs⟩ : ∃ js, s.jq.jobs = j :: js := by
    rw [State.head, List.head?_eq_some_iff] at hj
    exact hj
  refine ⟨by rw [startJob_eq, hjs]; rfl, _, rfl, fun first => ?_, fun r raw first kind => ?_⟩
  · rw [State.firstTransaction, if_pos first]
  · rw [State.firstTransaction, Job.writeEnableFirst, raw]
    simp only [first, Bool.false_eq_true, if_false, State.mainTransaction, kind, raw]
    rfl

/-! ### One entry more -/

/-- The entry of a line that had none. -/
theorem transferring_append {fs : List Fill} {f : Fill} (h : ∀ g ∈ fs, g.line ≠ f.line) :
    transferring f.line (fs ++ [f]) = fs ++ [{ f with phase := .transfer }] := by
  have : fs.map (fun g => if g.line = f.line then { g with phase := .transfer } else g) = fs :=
    (List.map_congr_left fun g hg => if_neg (h g hg)).trans (List.map_id fs)
  rw [transferring, List.map_append, this]
  simp

theorem oldestWaiting_append {s : State} {fs : List Fill} {f : Fill} (hf : s.fills = fs ++ [f])
    (h : ∀ g ∈ fs, g.phase ≠ .waiting) (w : f.phase = .waiting) : s.oldestWaiting = some f := by
  have : fs.find? (fun g => g.phase = .waiting) = none := List.find?_eq_none.mpr fun g hg => by simpa using h g hg
  rw [State.oldestWaiting, hf, List.find?_append, this]
  simp [w]

/-! ### The state after a miss that creates an entry -/

section Entered

variable (s : State) (rs : List Record) (r : Record)

@[simp] theorem entered_records : (s.entered rs r).records = rs ++ [{ r with needs := [.waitFill] }] := rfl
@[simp] theorem entered_fills : (s.entered rs r).fills =
    s.fills ++ [freshFill (r.lineOf 0) (s.set (setIndex (r.lineOf 0))).victim ⟨r.id, 0⟩] := rfl
@[simp] theorem entered_fsq : (s.entered rs r).fsq = s.fsq := rfl
@[simp] theorem entered_jq : (s.entered rs r).jq = s.jq := rfl
@[simp] theorem entered_staging : (s.entered rs r).staging = s.staging := rfl
@[simp] theorem entered_protection : (s.entered rs r).protection = s.protection := rfl

theorem entered_linksSame : LinksSame s (s.entered rs r) := ⟨rfl, rfl, rfl, rfl, rfl, rfl⟩

theorem entered_cache_of_victim {v : Fin 4} (h : (s.set (setIndex (r.lineOf 0))).victim = some v) :
    (s.entered rs r).cache =
      (s.updSet (setIndex (r.lineOf 0)) (fun c => c.allocate v (cacheTag (r.lineOf 0)))).cache := by
  show s.allocated _ = _
  rw [State.allocated, h]

theorem entered_cache_of_no_victim (h : (s.set (setIndex (r.lineOf 0))).victim = none) :
    (s.entered rs r).cache = s.cache := by
  show s.allocated _ = _
  rw [State.allocated, h]

/-- The victim becomes FILLING and keeps its place (R7). -/
theorem entered_set_of_victim {v : Fin 4} (h : (s.set (setIndex (r.lineOf 0))).victim = some v) :
    (s.entered rs r).set (setIndex (r.lineOf 0)) =
      (s.set (setIndex (r.lineOf 0))).putLine v (.filling (cacheTag (r.lineOf 0))) := by
  rw [set_eq_of_cache (entered_cache_of_victim s rs r h), updSet_set]
  rfl

theorem entered_set_other {i : Fin 128} (hi : i ≠ setIndex (r.lineOf 0)) : (s.entered rs r).set i = s.set i := by
  cases hv : (s.set (setIndex (r.lineOf 0))).victim with
  | none => exact set_eq_of_cache (entered_cache_of_no_victim s rs r hv) i
  | some v => rw [set_eq_of_cache (entered_cache_of_victim s rs r hv), updSet_set_other _ _ _ _ (Ne.symm hi)]

end Entered

/-! ### A READ of one line misses -/

/-- A READ of one line that misses, once it has created the entry of its line and before FSQ goes on. -/
def State.readEntered (s : State) (l : Link) (tag : Byte) (p : List Byte) : State :=
  ((s.afterTake l).addRecord (waitingRead l tag p .waitRelease s)).entered s.records (waitingRead l tag p .waitRelease s)

section ReadEntered

variable {l : Link} {tag : Byte} {p : List Byte} {s : State}

/-- What a READ of one line does when an entry is created for it (R32, R43, R44). -/
theorem plainRead_creates (h : PlainRead l tag p s)
    (miss : (s.set (setIndex (field p 0 4))).hit (cacheTag (field p 0 4)) = none) (running : s.fsq.state ≠ .faulted)
    (fresh : ∀ f ∈ s.fills, f.line ≠ lineAddress (field p 0 4)) (free : s.fills.length < 8)
    (slots : ∀ r ∈ s.records, NeedState.waitSlot ∉ r.needs) :
    exec (.read l.arrival tag p) s = .next (s.readEntered l tag p).kick := by
  have last := waitingRead_last h .waitRelease
  have missed : (((s.afterTake l).addRecord (waitingRead l tag p .waitRelease s)).set
      (setIndex ((waitingRead l tag p .waitRelease s).lineOf 0))).hit
      (cacheTag ((waitingRead l tag p .waitRelease s).lineOf 0)) = none := by
    rw [setIndex_lineOf_zero rfl, cacheTag_lineOf_zero rfl, addRecord_set, afterTake_set]
    exact miss
  have entered : ((s.afterTake l).addRecord (waitingRead l tag p .waitRelease s)).lookup
      ⟨(waitingRead l tag p .waitRelease s).id, 0⟩ = s.readEntered l tag p := by
    rw [lookup_miss last missed, missNeed_creates]
    · exact missCreate_of_last last rfl slots (.inl rfl)
    · show (s.afterTake l).fsq.state ≠ _
      rwa [afterTake_fsq]
    · show ∀ f ∈ (s.afterTake l).fills, _
      rw [afterTake_fills, lineOf_zero]
      exact fresh
    · show (s.afterTake l).fills.length < 8
      rwa [afterTake_fills]
  have waits : (s.readEntered l tag p).HasLast s.records (waitingRead l tag p .waitFill s) := ⟨rfl, last.2⟩
  rw [exec_plainRead h, entered, show (waitingRead l tag p .waitRelease s).id = (waitingRead l tag p .waitFill s).id from rfl,
    settle_of_last_waiting waits rfl, kickIfCreated, if_pos]
  simp [State.readEntered, State.addRecord]

theorem readEntered_records : (s.readEntered l tag p).records = s.records ++ [waitingRead l tag p .waitFill s] := rfl

theorem readEntered_fsq : (s.readEntered l tag p).fsq = s.fsq := afterTake_fsq s l

theorem readEntered_jobSide : JobSideSame s (s.readEntered l tag p) :=
  ⟨afterTake_jq s l, afterTake_staging s l, afterTake_protection s l⟩

theorem readEntered_linksSame : LinksSame (s.afterTake l) (s.readEntered l tag p) := ⟨rfl, rfl, rfl, rfl, rfl, rfl⟩

theorem readEntered_fills : (s.readEntered l tag p).fills =
    s.fills ++ [newFill l tag (field p 0 4) (s.set (setIndex (field p 0 4))).victim] := by
  rw [State.readEntered, entered_fills, setIndex_lineOf_zero rfl, lineOf_zero]
  simp only [State.addRecord, State.set, afterTake_fills, afterTake_cache]
  rfl

theorem readEntered_counters : (s.readEntered l tag p).counters = { s.counters with
    lookupMiss := s.counters.lookupMiss + 1
    bypassFill := s.counters.bypassFill +
      (if (s.set (setIndex (field p 0 4))).victim = none then 1 else 0) } := by
  rw [State.readEntered, State.entered, setIndex_lineOf_zero rfl]
  simp only [State.addRecord, State.set, afterTake_counters, afterTake_cache]
  rfl

theorem readEntered_set_of_victim {v : Fin 4} (h : (s.set (setIndex (field p 0 4))).victim = some v) :
    (s.readEntered l tag p).set (setIndex (field p 0 4)) =
      (s.set (setIndex (field p 0 4))).putLine v (.filling (cacheTag (field p 0 4))) := by
  have at_line := entered_set_of_victim ((s.afterTake l).addRecord (waitingRead l tag p .waitRelease s)) s.records
    (waitingRead l tag p .waitRelease s) (v := v)
  rw [setIndex_lineOf_zero rfl, cacheTag_lineOf_zero rfl, addRecord_set, afterTake_set] at at_line
  exact at_line h

theorem readEntered_cache (h : (s.set (setIndex (field p 0 4))).victim = none) :
    (s.readEntered l tag p).cache = s.cache := by
  refine (entered_cache_of_no_victim _ _ _ ?_).trans (afterTake_cache s l)
  rw [setIndex_lineOf_zero rfl, addRecord_set, afterTake_set]
  exact h

theorem readEntered_set_other {i : Fin 128} (hi : i ≠ setIndex (field p 0 4)) :
    (s.readEntered l tag p).set i = s.set i := by
  rw [State.readEntered, entered_set_other _ _ _ (by rw [setIndex_lineOf_zero rfl]; exact hi), addRecord_set, afterTake_set]

end ReadEntered

/-- Settles O25: the miss creates the entry, and then FSQ's own decision says whether it waits, is served, or the head job
goes first. -/
theorem readMissCreatesAnEntry : Obligations.ReadMissCreatesAnEntry := by
  intro l tag p s plain miss running idle fresh free slots
  have h := plainRead_iff plain
  have fsq := readEntered_fsq (l := l) (tag := tag) (p := p) (s := s)
  obtain ⟨jq, staging, protection⟩ := readEntered_jobSide (l := l) (tag := tag) (p := p) (s := s)
  have fills := readEntered_fills (l := l) (tag := tag) (p := p) (s := s)
  have chosen : s.fsq.port = none → (s.readEntered l tag p).kick = (s.readEntered l tag p).choose := fun port => by
    obtain busy | ⟨-, ready, profile, -, -⟩ := idle
    · simp [port] at busy
    · exact kick_of_ready (by rwa [fsq]) (by rwa [fsq]) (by rwa [fsq])
  have only : (s.readEntered l tag p).FlashSideOnly (s.readEntered l tag p).kick := by
    cases port : s.fsq.port with
    | none => rw [chosen port]; exact choose_flashSide _
    | some x => rw [kick_of_port (s := s.readEntered l tag p) (by simp [fsq, port])]; exact .refl _
  have oldest : s.fsq.port = none → (s.readEntered l tag p).oldestWaiting =
      some (newFill l tag (field p 0 4) (s.set (setIndex (field p 0 4))).victim) := fun port => by
    obtain busy | ⟨-, -, -, -, none_waits⟩ := idle
    · simp [port] at busy
    · exact oldestWaiting_append fills none_waits rfl
  have head : (s.readEntered l tag p).head = s.head := by rw [State.head, jq]; rfl
  have queued : s.fsq.port = none → ∀ j, s.head = some j → j.phase = none := fun port j hj => by
    obtain busy | ⟨-, -, -, not_running, -⟩ := idle
    · simp [port] at busy
    · exact phase_of_not_running hj not_running
  have same_set : ∀ i, (s.readEntered l tag p).kick.set i = (s.readEntered l tag p).set i := set_eq_of_cache only.cache
  refine ⟨_, plainRead_creates h miss running fresh free slots, only.records,
    frameTaken_of_linksSame (readEntered_linksSame.trans only.links), fun v hv => ?_, fun hv => ?_, fun i hi => ?_,
    only.counters.trans readEntered_counters, fun port => ?_, fun port no_job => ?_, fun port job burst => ?_,
    fun j job port burst => ?_⟩
  · rw [same_set, readEntered_set_of_victim hv]
  · rw [only.cache, readEntered_cache hv]
  · rw [same_set, readEntered_set_other hi]
  · rw [kick_of_port (by rwa [fsq])]
    exact ⟨fills, ⟨jq, staging, protection⟩, fsq⟩
  · rw [chosen port, choose_of_no_job (head.trans no_job), serveOldest_of_some (oldest port), serveFill_eq, fills,
      transferring_append fresh, State.headQueued, head, no_job, fsq]
    exact ⟨rfl, ⟨jq, staging, protection⟩, rfl⟩
  · obtain ⟨j, hj⟩ := Option.ne_none_iff_exists'.mp job
    rw [chosen port, choose_of_burst_ne (head.trans hj) (oldest port) (by rwa [fsq]), serveFill_eq, fills,
      transferring_append fresh, headQueued_of_head (head.trans hj) (queued port j hj), fsq]
    exact ⟨rfl, ⟨jq, staging, protection⟩, rfl⟩
  · rw [chosen port, choose_of_burst_eq (head.trans job) (queued port j job) (by rwa [fsq])]
    refine ⟨fills, ?_, fsq ▸ startJob_jobStarted (head.trans job)⟩
    rw [startJob_eq, jq]
    exact List.tail_modifyHead

end Sys2Proof.Machine
end

section
/-! PROOFS. A PIN of one line. -/

namespace Sys2Proof.Machine

/-! ### The claims and checks of a PIN -/

@[simp] theorem afterTake_linePinned (s : State) (l : Link) (a : Nat) : (s.afterTake l).linePinned a = s.linePinned a := by
  simp [State.linePinned]

@[simp] theorem afterTake_unpinnedLines (s : State) (l : Link) (r : Range) :
    (s.afterTake l).unpinnedLines r = s.unpinnedLines r := by
  simp [State.unpinnedLines]

@[simp] theorem afterTake_pinLimitExceeded (s : State) (l : Link) (r : Range) :
    (s.afterTake l).pinLimitExceeded r = s.pinLimitExceeded r := by
  simp [State.pinLimitExceeded]

/-- The checks of a PIN do not see that its frame has been taken. -/
theorem pinChecks_afterTake (q : Request) (s : State) (l : Link) : pinChecks q (s.afterTake l) = pinChecks q s := by
  simp [pinChecks]

/-- A PIN's claims for its lines, added to the state with its record (R31). -/
def State.claimed (s : State) (r : Record) (lines : List Nat) : State := lines.foldl State.addClaim (s.addRecord r)

/-- Claims change nothing but the claim counts of the sets. -/
theorem claimed_eq (s : State) (r : Record) (lines : List Nat) :
    s.claimed r lines = { s.addRecord r with cache := (s.claimed r lines).cache } := by
  unfold State.claimed
  generalize s.addRecord r = t
  induction lines generalizing t with
  | nil => rfl
  | cons a lines ih =>
    rw [List.foldl_cons]
    exact ih (t.addClaim a)

/-- An accepted PIN claims its lines and looks them up (R31). -/
theorem exec_acceptedPin {l : Link} {tag : Byte} {p : List Byte} {s : State} (ht : s.takesRequest .pin l tag p = true)
    (ho : (s.link l).isOpen = true) (hp : p.length = 6)
    (checks : firstFailure (pinChecks { link := l, session := (s.link l).session, tag := tag, payload := p } s) = none) :
    exec (.pin l.arrival tag p) s = .next ((s.afterTake l).acceptPin
      { link := l, session := (s.link l).session, tag := tag, payload := p } (payloadRange p 2)) := by
  refine (exec_request ht ho (by simp [wrongSize, fixedSize, hp])).trans ?_
  dsimp only [bodyOf]
  rw [pinBody, pinChecks_afterTake, checks]

/-! ### One line -/

/-- A PIN that passes its checks uses a fresh tag (R24, R30). -/
theorem fresh_of_pinChecks {q : Request} {s : State} (checks : firstFailure (pinChecks q s) = none) :
    ∀ r ∈ s.records, r.id ≠ { link := q.link, tag := q.tag } := by
  have passed := firstFailure_eq_none.mp checks
  simp only [pinChecks, List.forall_mem_cons] at passed
  obtain ⟨-, -, unused, -⟩ := passed
  exact tagInUse_eq_false.mp unused

/-- A PIN of one line that is to be looked up. -/
structure PlainPin (l : Link) (tag : Byte) (p : List Byte) (s : State) : Prop where
  takes : s.takesRequest .pin l tag p = true
  isOpen : (s.link l).isOpen = true
  size : p.length = 6
  checks : firstFailure (pinChecks { link := l, session := (s.link l).session, tag := tag, payload := p } s) = none
  oneLine : field p 0 4 % 64 + field p 4 2 ≤ 64

section PlainPin

variable {l : Link} {tag : Byte} {p : List Byte} {s : State} (h : PlainPin l tag p s)

/-- The record of a PIN of one line. -/
def waitingPin (l : Link) (tag : Byte) (p : List Byte) (n : NeedState) (s : State) : Record :=
  { waitingRead l tag p n s with kind := .pin, buffer := [] }

include h in
theorem PlainPin.fresh : ∀ r ∈ s.records, r.id ≠ { link := l, tag := tag } := fresh_of_pinChecks h.checks

include h in
theorem PlainPin.length : 0 < field p 4 2 := by
  have passed := firstFailure_eq_none.mp h.checks
  simp only [pinChecks, List.forall_mem_cons, Bool.or_eq_false_iff, decide_eq_false_iff_not] at passed
  obtain ⟨⟨nonempty, -⟩, -⟩ := passed
  exact Nat.pos_of_ne_zero nonempty

include h in
theorem newRecord_pin :
    newRecord { link := l, session := (s.link l).session, tag := tag, payload := p } .pin (payloadRange p 2) =
      waitingPin l tag p .waitRelease s := by
  simp [newRecord, payloadRange, waitingPin, waitingRead, lineCount_one h.length h.oneLine]

/-- The lines a PIN of one line claims: its line, or none if that is pinned. -/
def State.lineToClaim (s : State) (a : Nat) : List Nat := if s.linePinned (lineAddress a) then [] else [lineAddress a]

include h in
theorem unpinnedLines_one : s.unpinnedLines (payloadRange p 2) = s.lineToClaim (field p 0 4) := by
  have one : spannedLines (field p 0 4) (field p 4 2) = [lineAddress (field p 0 4)] := by
    simp [spannedLines, lineCount_one h.length h.oneLine]
  rw [State.unpinnedLines, payloadRange, one, State.lineToClaim]
  cases pinned : s.linePinned (lineAddress (field p 0 4)) <;> simp [pinned]

/-- A PIN of one line as it is looked up: its record in the table, its line claimed. -/
def State.pinClaimed (s : State) (l : Link) (tag : Byte) (p : List Byte) : State :=
  (s.afterTake l).claimed (waitingPin l tag p .waitRelease s) (s.lineToClaim (field p 0 4))

include h in
theorem exec_plainPin : exec (.pin l.arrival tag p) s = .next (kickIfCreated (s.afterTake l)
    (((s.pinClaimed l tag p).lookup ⟨(waitingPin l tag p .waitRelease s).id, 0⟩).settle
      (waitingPin l tag p .waitRelease s).id)) := by
  rw [exec_acceptedPin h.takes h.isOpen h.size h.checks, State.acceptPin, newRecord_pin h, afterTake_unpinnedLines,
    unpinnedLines_one h]
  rfl

include h in
theorem pinClaimed_last : (s.pinClaimed l tag p).HasLast s.records (waitingPin l tag p .waitRelease s) := by
  refine ⟨?_, h.fresh⟩
  rw [State.pinClaimed, claimed_eq, ← afterTake_records s l]
  rfl

theorem pinClaimed_fills : (s.pinClaimed l tag p).fills = s.fills := by
  rw [State.pinClaimed, claimed_eq]
  exact afterTake_fills s l

theorem pinClaimed_fsq : (s.pinClaimed l tag p).fsq = s.fsq := by
  rw [State.pinClaimed, claimed_eq]
  exact afterTake_fsq s l

theorem pinClaimed_counters : (s.pinClaimed l tag p).counters = s.counters := by
  rw [State.pinClaimed, claimed_eq]
  exact afterTake_counters s l

theorem pinClaimed_jobSide : JobSideSame s (s.pinClaimed l tag p) := by
  rw [State.pinClaimed, claimed_eq]
  exact ⟨afterTake_jq s l, afterTake_staging s l, afterTake_protection s l⟩

theorem pinClaimed_linksSame : LinksSame (s.afterTake l) (s.pinClaimed l tag p) := by
  rw [State.pinClaimed, claimed_eq]
  exact ⟨rfl, rfl, rfl, rfl, rfl, rfl⟩

/-- The set of the line, with its claim. -/
theorem pinClaimed_set : (s.pinClaimed l tag p).set (setIndex (field p 0 4)) =
    { s.set (setIndex (field p 0 4)) with
      claims := (s.set (setIndex (field p 0 4))).claims + if s.linePinned (lineAddress (field p 0 4)) then 0 else 1 } := by
  unfold State.pinClaimed State.claimed State.lineToClaim
  split
  · exact afterTake_set s l _
  · rw [List.foldl_cons, List.foldl_nil, State.addClaim, setIndex_lineAddress, updSet_set, addRecord_set, afterTake_set]

/-- A claim plays no part in the choice of the victim. -/
theorem pinClaimed_victim : ((s.pinClaimed l tag p).set (setIndex (field p 0 4))).victim =
    (s.set (setIndex (field p 0 4))).victim := by
  rw [pinClaimed_set]
  rfl

theorem pinClaimed_set_other {i : Fin 128} (hi : i ≠ setIndex (field p 0 4)) : (s.pinClaimed l tag p).set i = s.set i := by
  unfold State.pinClaimed State.claimed State.lineToClaim
  split
  · exact afterTake_set s l _
  · rw [List.foldl_cons, List.foldl_nil, State.addClaim, setIndex_lineAddress, updSet_set_other _ _ _ _ (Ne.symm hi),
      addRecord_set, afterTake_set]

end PlainPin

/-! ### A PIN of one line hits -/

/-- A hit's way goes to the front and is pinned; if it was not, a claim goes (R5, R12). -/
def CacheSet.pinWay (c : CacheSet) (w : Fin 4) : CacheSet :=
  { (c.toFront w).setPinned w true with claims := if c.ways[w].pinned then c.claims else c.claims - 1 }

theorem hitPin_eq (s : State) (r : Record) (i : Nat) (w : Fin 4) : s.hitPin r i w =
    ((s.updSet (setIndex (r.lineOf i)) (fun c => c.pinWay w)).countHit).updRecord r.id
      (fun q => { q.setNeed i .haveLine with pinnedCount := q.pinnedCount + 1 }) := rfl

/-- The line of an address is pinned if the way it hits is. -/
theorem linePinned_of_hit {s : State} {a : Nat} {w : Fin 4} (hit : (s.set (setIndex a)).hit (cacheTag a) = some w) :
    s.linePinned (lineAddress a) = ((s.set (setIndex a)).ways[w]).pinned := by
  simp [State.linePinned, setIndex_lineAddress, cacheTag_lineAddress, hit]

theorem linePinned_of_miss {s : State} {a : Nat} (miss : (s.set (setIndex a)).hit (cacheTag a) = none) :
    s.linePinned (lineAddress a) = false := by
  simp [State.linePinned, setIndex_lineAddress, cacheTag_lineAddress, miss]

/-- The one need of a PIN hits, and the PIN is answered (R5, R37). -/
theorem settle_hit_pin {s : State} {rs : List Record} {r : Record} (h : s.HasLast rs r) {n : NeedState}
    (hn : r.needs = [n]) (hk : r.kind = .pin) (hw : ∀ f ∈ s.fills, ∀ w ∈ f.waiters, w.id ≠ r.id) {v : Fin 4}
    (hit : (s.set (setIndex r.base)).hit (cacheTag r.base) = some v) :
    (s.lookup ⟨r.id, 0⟩).settle r.id =
      ({ (s.updSet (setIndex r.base) (fun c => c.pinWay v)).countHit with records := rs } : State).place r.link r.session
        (replyMessage .pin r.tag r.status (leBytes 2 (r.pinnedCount + 1))) := by
  have set := setIndex_lineOf_zero (r := r) rfl
  rw [lookup_hit_pin h hk (v := v) (by rw [set, cacheTag_lineOf_zero (r := r) rfl]; exact hit), hitPin_eq, set]
  exact settle_pin (s := (s.updSet (setIndex r.base) (fun c => c.pinWay v)).countHit) (h.of_records rfl) hn hk hw

section PlainPin

variable {l : Link} {tag : Byte} {p : List Byte} {s : State}

/-- The state in which a PIN of one line that hits is answered. -/
def State.pinHit (s : State) (l : Link) (tag : Byte) (p : List Byte) (w : Fin 4) : State :=
  { ((s.pinClaimed l tag p).updSet (setIndex (field p 0 4)) (fun c => c.pinWay w)).countHit with records := s.records }

theorem plainPin_hit (h : PlainPin l tag p s) (waiters : WaitersOk s) {w : Fin 4}
    (hit : (s.set (setIndex (field p 0 4))).hit (cacheTag (field p 0 4)) = some w) :
    exec (.pin l.arrival tag p) s =
      .next ((s.pinHit l tag p w).place l (s.link l).session (replyMessage .pin tag .ok [1, 0])) := by
  have unused : ∀ f ∈ (s.pinClaimed l tag p).fills, ∀ x ∈ f.waiters, x.id ≠ (waitingPin l tag p .waitRelease s).id := by
    rw [pinClaimed_fills]
    exact no_waiter_of_fresh waiters h.fresh
  have hits : ((s.pinClaimed l tag p).set (setIndex (field p 0 4))).hit (cacheTag (field p 0 4)) = some w := by
    rw [pinClaimed_set]
    exact hit
  have count : leBytes 2 1 = [1, 0] := by decide
  rw [exec_plainPin h, settle_hit_pin (pinClaimed_last h) rfl rfl unused hits, kickIfCreated_eq_self, ← count]
  · rfl
  · rw [place_fills, afterTake_fills]
    exact pinClaimed_fills

theorem pinHit_cache {w : Fin 4} : (s.pinHit l tag p w).cache =
    ((s.pinClaimed l tag p).updSet (setIndex (field p 0 4)) (fun c => c.pinWay w)).cache := rfl

/-- A pin spends the claim its line had (R12). -/
theorem pinWay_claims_add (c : CacheSet) (w : Fin 4) :
    ({ c with claims := c.claims + if c.ways[w].pinned then 0 else 1 } : CacheSet).pinWay w =
      { (c.putLine w (c.ways[w].withPinned true)) with recency := w :: c.recency.erase w } := by
  unfold CacheSet.pinWay
  dsimp only
  cases c.ways[w].pinned <;> rfl

/-- The claim of the line and its way's pin cancel (R12). -/
theorem pinHit_set {w : Fin 4} (hit : (s.set (setIndex (field p 0 4))).hit (cacheTag (field p 0 4)) = some w) :
    (s.pinHit l tag p w).set (setIndex (field p 0 4)) =
      { ((s.set (setIndex (field p 0 4))).putLine w
          (((s.set (setIndex (field p 0 4))).ways[w]).withPinned true)) with
        recency := w :: (s.set (setIndex (field p 0 4))).recency.erase w } := by
  rw [set_eq_of_cache pinHit_cache, updSet_set, pinClaimed_set, linePinned_of_hit hit, pinWay_claims_add]

theorem pinHit_set_other {w : Fin 4} {i : Fin 128} (hi : i ≠ setIndex (field p 0 4)) :
    (s.pinHit l tag p w).set i = s.set i := by
  rw [set_eq_of_cache pinHit_cache, updSet_set_other _ _ _ _ (Ne.symm hi), pinClaimed_set_other hi]

/-- The change of a hit that is counted stays behind the links. -/
theorem counted_linksSame (t : State) (i : Fin 128) (f : CacheSet → CacheSet) (rs : List Record) :
    LinksSame t { (t.updSet i f).countHit with records := rs } := ⟨rfl, rfl, rfl, rfl, rfl, rfl⟩

theorem pinHit_linksSame {w : Fin 4} : LinksSame (s.afterTake l) (s.pinHit l tag p w) :=
  (pinClaimed_linksSame (tag := tag) (p := p)).trans (counted_linksSame _ _ _ _)

theorem pinHit_records {w : Fin 4} : (s.pinHit l tag p w).records = s.records := rfl

theorem pinHit_fills {w : Fin 4} : (s.pinHit l tag p w).fills = s.fills := by
  rw [State.pinHit, State.countHit, updCounters_fills, updSet_fills, pinClaimed_fills]

theorem pinHit_fsq {w : Fin 4} : (s.pinHit l tag p w).fsq = s.fsq := by
  rw [State.pinHit, State.countHit, updCounters_fsq, updSet_fsq, pinClaimed_fsq]

theorem pinHit_jobSide {w : Fin 4} : JobSideSame s (s.pinHit l tag p w) := by
  simp only [JobSideSame, State.pinHit, State.countHit, updCounters_jq, updCounters_staging, updCounters_protection,
    updSet_jq, updSet_staging, updSet_protection]
  exact pinClaimed_jobSide

theorem pinHit_counters {w : Fin 4} : (s.pinHit l tag p w).counters =
    { s.counters with lookupHit := s.counters.lookupHit + 1 } := by
  have claimed := pinClaimed_counters (s := s) (l := l) (tag := tag) (p := p)
  rw [State.pinHit, countHit_counters, updSet_counters, claimed]

end PlainPin

/-! ### A PIN of one line misses -/

section PlainPin

variable {l : Link} {tag : Byte} {p : List Byte} {s : State}

/-- What a PIN of one line does when an entry is created for it (R32, R43, R44). -/
theorem plainPin_creates (h : PlainPin l tag p s)
    (miss : (s.set (setIndex (field p 0 4))).hit (cacheTag (field p 0 4)) = none) (running : s.fsq.state ≠ .faulted)
    (fresh : ∀ f ∈ s.fills, f.line ≠ lineAddress (field p 0 4)) (free : s.fills.length < 8)
    (slots : ∀ r ∈ s.records, NeedState.waitSlot ∉ r.needs) {v : Fin 4}
    (victim : (s.set (setIndex (field p 0 4))).victim = some v) :
    exec (.pin l.arrival tag p) s =
      .next ((s.pinClaimed l tag p).entered s.records (waitingPin l tag p .waitRelease s)).kick := by
  have last := pinClaimed_last h
  have set := setIndex_lineOf_zero (r := waitingPin l tag p .waitRelease s) rfl
  have missed : ((s.pinClaimed l tag p).set (setIndex ((waitingPin l tag p .waitRelease s).lineOf 0))).hit
      (cacheTag ((waitingPin l tag p .waitRelease s).lineOf 0)) = none := by
    rw [set, cacheTag_lineOf_zero rfl, show (waitingPin l tag p .waitRelease s).base = field p 0 4 from rfl, pinClaimed_set]
    exact miss
  have entered : (s.pinClaimed l tag p).lookup ⟨(waitingPin l tag p .waitRelease s).id, 0⟩ =
      (s.pinClaimed l tag p).entered s.records (waitingPin l tag p .waitRelease s) := by
    rw [lookup_miss last missed, missNeed_creates _ _ (by rwa [pinClaimed_fsq])
      (by rw [pinClaimed_fills, lineOf_zero]; exact fresh) (by rwa [pinClaimed_fills])]
    refine missCreate_of_last last rfl slots (.inr ?_)
    rw [set, show (waitingPin l tag p .waitRelease s).base = field p 0 4 from rfl, pinClaimed_victim, victim]
    exact Option.some_ne_none v
  have waits : ((s.pinClaimed l tag p).entered s.records (waitingPin l tag p .waitRelease s)).HasLast s.records
      (waitingPin l tag p .waitFill s) := ⟨rfl, last.2⟩
  rw [exec_plainPin h, entered,
    show (waitingPin l tag p .waitRelease s).id = (waitingPin l tag p .waitFill s).id from rfl,
    settle_of_last_waiting waits rfl, kickIfCreated, if_pos]
  simp [pinClaimed_fills]

end PlainPin

/-- Settles O27: the claim of the line is spent by the pin of a hit, and stands with the entry of a miss. -/
theorem pinOfOneLine : Obligations.PinOfOneLine := by
  intro l tag p s waiters ht ho hp checks oneLine
  have h : PlainPin l tag p s := ⟨ht, ho, hp, checks, oneLine⟩
  refine ⟨fun w hit => ?_, fun miss running port fresh free slots v victim => ?_⟩
  · refine ⟨_, plainPin_hit h waiters hit, answered_of_linksSame _ ho pinHit_linksSame, ?_, fun i hi => ?_, ?_, ?_,
      ⟨?_, ?_, ?_⟩, ?_, ?_⟩
    · rw [place_set, pinHit_set hit]
    · rw [place_set, pinHit_set_other hi]
    · rw [place_records, pinHit_records]
    · rw [place_fills, pinHit_fills]
    · rw [place_jq, pinHit_jobSide.1]
    · rw [place_staging, pinHit_jobSide.2.1]
    · rw [place_protection, pinHit_jobSide.2.2]
    · rw [place_fsq, pinHit_fsq]
    · rw [place_counters, pinHit_counters]
  · have waits := plainPin_creates h miss running fresh free slots victim
    rw [kick_of_port (by rwa [entered_fsq, pinClaimed_fsq])] at waits
    refine ⟨_, waits, entered_records _ _ _, ?_, ?_,
      frameTaken_of_linksSame (pinClaimed_linksSame.trans (entered_linksSame _ _ _)), ?_, ?_⟩
    · rw [entered_fills, pinClaimed_fills, setIndex_lineOf_zero (a := field p 0 4) rfl, pinClaimed_victim, victim, lineOf_zero]
      rfl
    · have at_line := entered_set_of_victim (s.pinClaimed l tag p) s.records (waitingPin l tag p .waitRelease s) (v := v)
      rw [setIndex_lineOf_zero (a := field p 0 4) rfl, cacheTag_lineOf_zero (a := field p 0 4) rfl] at at_line
      rw [at_line (pinClaimed_victim.trans victim), pinClaimed_set, linePinned_of_miss miss]
      rfl
    · rw [JobSideSame, entered_jq, entered_staging, entered_protection]
      exact pinClaimed_jobSide
    · rw [entered_fsq, pinClaimed_fsq]

end Sys2Proof.Machine
end

section
/-! PROOFS. What the lookups of a record's needs do to that record, and to what stands beside the tables. -/

namespace Sys2Proof.Machine

/-! ### Only the tables change -/

/-- Only the Request Table, the Line Cache, the Fill Table and the counters may differ. -/
def State.TablesOnly (s t : State) : Prop :=
  t = { s with records := t.records, cache := t.cache, fills := t.fills, counters := t.counters }

namespace State.TablesOnly

theorem refl (s : State) : s.TablesOnly s := rfl

theorem trans {s t u : State} (h : s.TablesOnly t) (g : t.TablesOnly u) : s.TablesOnly u := by
  unfold State.TablesOnly at *
  rw [g, h]

section

variable {s t : State} (h : s.TablesOnly t)
include h

theorem fsq : t.fsq = s.fsq := by rw [h]
theorem jq : t.jq = s.jq := by rw [h]
theorem staging : t.staging = s.staging := by rw [h]
theorem protection : t.protection = s.protection := by rw [h]
theorem links : LinksSame s t := by rw [h]; exact ⟨rfl, rfl, rfl, rfl, rfl, rfl⟩

end

theorem foldl {α : Type} {f : State → α → State} (h : ∀ (s : State) (x : α), s.TablesOnly (f s x)) (xs : List α) (s : State) :
    s.TablesOnly (xs.foldl f s) := by
  induction xs generalizing s with
  | nil => exact refl s
  | cons x xs ih => exact (h s x).trans (ih _)

theorem setNeed (s : State) (w : Waiter) (n : NeedState) : s.TablesOnly (s.setNeed w n) := rfl

theorem attach (s : State) (a : Nat) (w : Waiter) : s.TablesOnly (s.attach a w) := rfl

theorem failNeed (s : State) (w : Waiter) : s.TablesOnly (s.failNeed w) := by
  unfold State.failNeed
  split
  · exact refl s
  · dsimp only
    split
    · rfl
    · rfl

theorem createFill (s : State) (a : Nat) (v : Option (Fin 4)) (w : Waiter) : s.TablesOnly (s.createFill a v w) := by
  have entered : s.TablesOnly (State.setNeed { s with fills := s.fills ++ [freshFill a v w] } w .waitFill) := rfl
  exact entered.trans (foldl (fun t w => attach t a w) _ _)

theorem missCreate (s : State) (r : Record) (w : Waiter) : s.TablesOnly (s.missCreate r w) := by
  unfold State.missCreate
  dsimp only
  split
  · exact trans (t := s.updSet _ _) rfl (createFill _ _ _ _)
  · split
    · exact (createFill s _ _ _).trans rfl
    · rfl

theorem missNeed (s : State) (r : Record) (w : Waiter) : s.TablesOnly (s.missNeed r w) := by
  refine trans (t := s.countMiss) rfl ?_
  unfold State.missNeed
  dsimp only
  split_ifs
  · exact failNeed _ _
  · rfl
  · exact missCreate _ _ _
  · rfl

theorem lookup (s : State) (w : Waiter) : s.TablesOnly (s.lookup w) := by
  unfold State.lookup
  split
  · exact refl s
  · dsimp only
    split
    · split
      · rfl
      · rfl
    · exact missNeed _ _ _

end State.TablesOnly

/-! ### The needs of the queue -/

theorem mem_indexed {r : Record} {n : NeedState} {i : Nat} : i ∈ r.indexed n ↔ r.needs[i]? = some n := by
  simp only [Record.indexed, List.mem_filter, List.mem_range, decide_eq_true_eq, and_iff_right_iff_imp]
  exact fun h => (List.getElem?_eq_some_iff.mp h).1

theorem mem_needsIn {s : State} {n : NeedState} {w : Waiter} :
    w ∈ s.needsIn n ↔ ∃ r ∈ s.records, r.id = w.id ∧ r.needs[w.index]? = some n := by
  simp only [State.needsIn, List.mem_flatMap, List.mem_map, mem_indexed]
  constructor
  · rintro ⟨r, hr, i, hi, rfl⟩
    exact ⟨r, hr, rfl, hi⟩
  · rintro ⟨r, hr, hid, hi⟩
    exact ⟨r, hr, w.index, hi, by rw [hid]⟩

/-- A need of the last record that is in a queue is in that state. -/
theorem need_of_mem_needsIn {s : State} {rs : List Record} {r : Record} (h : s.HasLast rs r) {n : NeedState} {w : Waiter}
    (hw : w ∈ s.needsIn n) (hid : w.id = r.id) : r.needs[w.index]? = some n := by
  obtain ⟨q, hq, hqid, hn⟩ := mem_needsIn.mp hw
  rw [h.1, List.mem_append, List.mem_singleton] at hq
  obtain hq | rfl := hq
  · exact absurd (hqid.trans hid) (h.2 q hq)
  · exact hn

/-! ### Gathering the slot queue -/

/-- Some needs of a record that waited for a slot wait for a fill now. -/
structure Record.Gathered (r r' : Record) : Prop where
  same : r' = { r with needs := r'.needs }
  size : r'.needs.length = r.needs.length
  needs : ∀ k : Nat, r'.needs[k]? = r.needs[k]? ∨
    (r.needs[k]? = some NeedState.waitSlot ∧ r'.needs[k]? = some NeedState.waitFill)

theorem Record.Gathered.refl (r : Record) : r.Gathered r := ⟨rfl, rfl, fun _ => .inl rfl⟩

/-- One more need is attached. -/
theorem Record.Gathered.setNeed {r q : Record} (h : r.Gathered q) {i : Nat} (hi : r.needs[i]? = some .waitSlot) :
    r.Gathered (q.setNeed i .waitFill) := by
  refine ⟨?_, ?_, fun k => ?_⟩
  · rw [Record.setNeed, h.same]
  · rw [Record.setNeed, List.length_set, h.size]
  · by_cases e : i = k
    · subst e
      have bound : i < q.needs.length := h.size ▸ (List.getElem?_eq_some_iff.mp hi).1
      exact .inr ⟨hi, List.getElem?_set_self bound⟩
    · rw [Record.setNeed, List.getElem?_set_ne e]
      exact h.needs k

/-- A change of one record leaves the last one last. -/
theorem updRecord_keepsLast {s : State} {rs : List Record} {r : Record} (h : s.HasLast rs r) (id : RecordId)
    {f : Record → Record} (hf : ∀ q, (f q).id = q.id) :
    (s.updRecord id f).HasLast (rs.map (fun q => if q.id = id then f q else q)) (if r.id = id then f r else r) := by
  have keeps : ∀ q : Record, (if q.id = id then f q else q).id = q.id := fun q => by split <;> simp [hf]
  refine ⟨by rw [State.updRecord, h.1, List.map_append]; rfl, fun q hq => ?_⟩
  obtain ⟨x, hx, rfl⟩ := List.mem_map.mp hq
  rw [keeps, keeps]
  exact h.2 x hx

theorem foldl_attach_last (a : Nat) {r : Record} (ws : List Waiter)
    (hw : ∀ w ∈ ws, w.id = r.id → r.needs[w.index]? = some .waitSlot) {s : State} {rs : List Record} {q : Record}
    (h : s.HasLast rs q) (g : r.Gathered q) :
    ∃ rs' r', (ws.foldl (fun t w => t.attach a w) s).HasLast rs' r' ∧ r.Gathered r' := by
  induction ws generalizing s rs q with
  | nil => exact ⟨rs, q, h, g⟩
  | cons w ws ih =>
    have attached : (s.attach a w).HasLast _ (if q.id = w.id then q.setNeed w.index .waitFill else q) :=
      (updRecord_keepsLast h w.id (f := fun x => x.setNeed w.index .waitFill) fun _ => rfl).of_records rfl
    refine ih (fun x hx => hw x (List.mem_cons_of_mem _ hx)) attached ?_
    split
    · next e =>
      have same : q.id = r.id := by rw [g.same]; rfl
      exact g.setNeed (hw w List.mem_cons_self (e.symm.trans same))
    · exact g

theorem gather_last {s : State} {rs : List Record} {r : Record} (h : s.HasLast rs r) (a : Nat) :
    ∃ rs' r', (s.gather a).HasLast rs' r' ∧ r.Gathered r' :=
  foldl_attach_last a _ (fun _ hw => need_of_mem_needsIn h (List.mem_of_mem_filter hw)) h (.refl r)

theorem attach_fills_length (s : State) (a : Nat) (w : Waiter) : (s.attach a w).fills.length = s.fills.length := by
  simp [State.attach, State.setNeed, State.countAttach, State.updFill]

theorem gather_fills_length (s : State) (a : Nat) : (s.gather a).fills.length = s.fills.length := by
  unfold State.gather
  generalize s.slotQueue.filter _ = ws
  induction ws generalizing s with
  | nil => rfl
  | cons w ws ih => rw [List.foldl_cons, ih, attach_fills_length]

theorem failNeed_fills (s : State) (w : Waiter) : (s.failNeed w).fills = s.fills := by
  unfold State.failNeed
  split
  · rfl
  · dsimp only
    split
    · rfl
    · rfl

/-! ### One lookup -/

/-- What one lookup of need `i` has made of its record: the need is HAVE, or it has failed, or it waits, for a fill if an
entry was created; of its other needs some that waited for a slot may wait for a fill. -/
structure Record.LookedUp (r r' : Record) (i : Nat) (faulted : Prop) (created : Prop) : Prop where
  same : r' = { r with needs := r'.needs, buffer := r'.buffer, pinnedCount := r'.pinnedCount, status := r'.status }
  size : r'.needs.length = r.needs.length
  others : ∀ k : Nat, k ≠ i → r'.needs[k]? = r.needs[k]? ∨ (r.needs[k]? = some .waitSlot ∧ r'.needs[k]? = some .waitFill)
  outcome :
    (r'.needs[i]? = some .haveLine ∧ r'.status = r.status ∧ ¬ created ∧
      (r.kind = .pin → r'.pinnedCount = r.pinnedCount + 1)) ∨
    (r'.needs[i]? = some .failed ∧ r'.status = .flashFault ∧ faulted ∧ ¬ created) ∨
    (r'.status = r.status ∧
      (r'.needs[i]? = some .waitFill ∨ ((r'.needs[i]? = some .waitWay ∨ r'.needs[i]? = some .waitSlot) ∧ ¬ created)))

section LookedUp

variable {s : State} {rs : List Record} {r : Record} (h : s.HasLast rs r) {i : Nat} (hi : i < r.needs.length)

/-- A need that is left to wait. -/
theorem lookedUp_setNeed {n : NeedState} {faulted created : Prop} (hi : i < r.needs.length)
    (hn : n = .waitFill ∨ ((n = .waitWay ∨ n = .waitSlot) ∧ ¬ created)) :
    r.LookedUp (r.setNeed i n) i faulted created := by
  refine ⟨rfl, List.length_set, fun k hk => .inl (List.getElem?_set_ne (Ne.symm hk)), .inr (.inr ⟨rfl, ?_⟩)⟩
  simpa [Record.setNeed, List.getElem?_set_self hi] using hn

/-- A need that waits for the entry it created, once the slot queue has been gathered. -/
theorem lookedUp_gathered {r' : Record} {faulted created : Prop} (hi : i < r.needs.length)
    (g : (r.setNeed i .waitFill).Gathered r') : r.LookedUp r' i faulted created := by
  have at_i : (r.setNeed i .waitFill).needs[i]? = some .waitFill := List.getElem?_set_self hi
  have status : r'.status = r.status := by rw [g.same]; rfl
  refine ⟨by rw [g.same]; rfl, g.size.trans List.length_set, fun k hk => ?_, .inr (.inr ⟨status, .inl ?_⟩)⟩
  · have other : (r.setNeed i .waitFill).needs[k]? = r.needs[k]? := List.getElem?_set_ne (Ne.symm hk)
    exact other ▸ g.needs k
  · obtain same | ⟨-, fill⟩ := g.needs i
    · exact same.trans at_i
    · exact fill

include h hi

theorem setNeed_lookedUp {n : NeedState} {faulted created : Prop}
    (hn : n = .waitFill ∨ ((n = .waitWay ∨ n = .waitSlot) ∧ ¬ created)) :
    ∃ rs' r', (s.setNeed ⟨r.id, i⟩ n).HasLast rs' r' ∧ r.LookedUp r' i faulted created := by
  refine ⟨rs, r.setNeed i n, ⟨?_, h.2⟩, lookedUp_setNeed hi hn⟩
  rw [State.setNeed, updRecord_of_last h]

theorem createFill_lookedUp (a : Nat) (v : Option (Fin 4)) {faulted created : Prop} :
    ∃ rs' r', (s.createFill a v ⟨r.id, i⟩).HasLast rs' r' ∧ r.LookedUp r' i faulted created := by
  have waits : (State.setNeed { s with fills := s.fills ++ [freshFill a v ⟨r.id, i⟩] } ⟨r.id, i⟩ .waitFill).HasLast rs
      (r.setNeed i .waitFill) := by
    refine ⟨?_, h.2⟩
    rw [State.setNeed, updRecord_of_last (h.of_records (by rfl))]
  obtain ⟨rs', r', last, g⟩ := gather_last waits a
  exact ⟨rs', r', last, lookedUp_gathered hi g⟩

theorem failNeed_lookedUp {faulted created : Prop} (hf : faulted) (hc : ¬ created) :
    ∃ rs' r', (s.failNeed ⟨r.id, i⟩).HasLast rs' r' ∧ r.LookedUp r' i faulted created := by
  refine ⟨rs, { r.setNeed i .failed with status := .flashFault }, ?_,
    ⟨rfl, List.length_set, fun k hk => .inl ?_, .inr (.inl ?_)⟩⟩
  · have failed : (s.updRecord r.id (fun q => { q.setNeed i .failed with status := .flashFault })).HasLast rs
        { r.setNeed i .failed with status := .flashFault } := ⟨by rw [updRecord_of_last h], h.2⟩
    rw [State.failNeed, record_of_last h]
    dsimp only
    split
    · exact failed
    · exact failed.of_records rfl
  · exact List.getElem?_set_ne (Ne.symm hk)
  · exact ⟨List.getElem?_set_self hi, rfl, hf, hc⟩

theorem hitRead_lookedUp (v : Fin 4) {faulted created : Prop} (hk : r.kind = .read) (hc : ¬ created) :
    ∃ rs' r', (s.hitRead r i v).HasLast rs' r' ∧ r.LookedUp r' i faulted created := by
  refine ⟨rs, (r.copyLine i ((s.set (setIndex (r.lineOf i))).ways[v]).bytes).setNeed i .haveLine, ⟨?_, h.2⟩,
    ⟨rfl, List.length_set, fun k hk => .inl (List.getElem?_set_ne (Ne.symm hk)), .inl ⟨?_, rfl, hc, fun e => ?_⟩⟩⟩
  · rw [hitRead_eq, updRecord_of_last (h.of_records (by rfl))]
  · exact List.getElem?_set_self hi
  · exact absurd (hk.symm.trans e) (by decide)

theorem hitPin_lookedUp (v : Fin 4) {faulted created : Prop} (hc : ¬ created) :
    ∃ rs' r', (s.hitPin r i v).HasLast rs' r' ∧ r.LookedUp r' i faulted created := by
  refine ⟨rs, { r.setNeed i .haveLine with pinnedCount := r.pinnedCount + 1 }, ⟨?_, h.2⟩,
    ⟨rfl, List.length_set, fun k hk => .inl (List.getElem?_set_ne (Ne.symm hk)), .inl ⟨?_, rfl, hc, fun _ => rfl⟩⟩⟩
  · rw [hitPin_eq, updRecord_of_last (h.of_records (by rfl))]
  · exact List.getElem?_set_self hi

theorem missCreate_lookedUp {faulted created : Prop}
    (hc : (s.missCreate r ⟨r.id, i⟩).fills.length = s.fills.length → ¬ created) :
    ∃ rs' r', (s.missCreate r ⟨r.id, i⟩).HasLast rs' r' ∧ r.LookedUp r' i faulted created := by
  revert hc
  unfold State.missCreate
  dsimp only
  split
  · next v _ =>
    have allocated : (s.updSet (setIndex (r.lineOf i)) (fun c => c.allocate v (cacheTag (r.lineOf i)))).HasLast rs r :=
      h.of_records rfl
    exact fun _ => createFill_lookedUp allocated hi _ _
  · split
    · intro _
      obtain ⟨rs', r', last, looked⟩ := createFill_lookedUp h hi (r.lineOf i) none (faulted := faulted) (created := created)
      exact ⟨rs', r', last.of_records rfl, looked⟩
    · exact fun hc => setNeed_lookedUp h hi (.inr ⟨.inl rfl, hc rfl⟩)

/-- A need that misses fails in FAULTED, else it waits (R32, R43). -/
theorem missNeed_lookedUp : ∃ rs' r', (s.missNeed r ⟨r.id, i⟩).HasLast rs' r' ∧
    r.LookedUp r' i (s.fsq.state = .faulted) ((s.missNeed r ⟨r.id, i⟩).fills.length ≠ s.fills.length) := by
  have counted : s.countMiss.HasLast rs r := h.of_records rfl
  unfold State.missNeed
  dsimp only
  split_ifs with faulted entry free
  · exact failNeed_lookedUp counted hi faulted fun hn => hn (congrArg List.length (failNeed_fills _ _))
  · exact setNeed_lookedUp (counted.of_records rfl) hi (.inl rfl)
  · exact missCreate_lookedUp counted hi fun e hn => hn e
  · exact setNeed_lookedUp counted hi (.inr ⟨.inr rfl, fun hn => hn rfl⟩)

/-- One lookup of a need of the last record (R5). -/
theorem lookup_lookedUp : ∃ rs' r', (s.lookup ⟨r.id, i⟩).HasLast rs' r' ∧
    r.LookedUp r' i (s.fsq.state = .faulted) ((s.lookup ⟨r.id, i⟩).fills.length ≠ s.fills.length) := by
  rw [State.lookup, record_of_last h]
  dsimp only
  split
  · next v _ =>
    split
    · next kind => exact hitRead_lookedUp h hi v kind fun hn => hn rfl
    · exact hitPin_lookedUp h hi v fun hn => hn rfl
  · exact missNeed_lookedUp h hi

end LookedUp

/-! ### All its lookups -/

/-- Where a record stands once the first `m` of its needs have been looked up. -/
structure Record.Progress (s0 s : State) (r0 r : Record) (m : Nat) : Prop where
  same : r = { r0 with needs := r.needs, buffer := r.buffer, pinnedCount := r.pinnedCount, status := r.status }
  size : r.needs.length = r0.needs.length
  todo : ∀ k, m ≤ k → k < r0.needs.length → r.needs[k]? = some .waitRelease
  status : (r.status = .ok ∧ ∀ k : Nat, r.needs[k]? ≠ some .failed) ∨ (r.status = .flashFault ∧ s0.fsq.state = .faulted)
  pinned : r0.kind = .pin → (∀ k < m, r.needs[k]? = some .haveLine) → r.pinnedCount = m
  created : s.fills.length = s0.fills.length ∨ ∃ k : Nat, r.needs[k]? = some .waitFill

/-- The next lookup takes the record one need further. -/
theorem Record.Progress.next {s0 s t : State} {r0 r r' : Record} {m : Nat} (h : Record.Progress s0 s r0 r m)
    (hm : m < r0.needs.length) (fsq : s.fsq = s0.fsq)
    (g : r.LookedUp r' m (s.fsq.state = .faulted) (t.fills.length ≠ s.fills.length)) :
    Record.Progress s0 t r0 r' (m + 1) := by
  have now : r.needs[m]? = some .waitRelease := h.todo m le_rfl hm
  constructor
  case same => rw [g.same, h.same]
  case size => exact g.size.trans h.size
  case todo =>
    intro k hk hl
    have before := h.todo k (by omega) hl
    obtain same | ⟨slot, -⟩ := g.others k (by omega)
    · exact same.trans before
    · simp [before] at slot
  case status =>
    have kept : r'.status = r.status → r'.needs[m]? ≠ some .failed →
        (r'.status = .ok ∧ ∀ k : Nat, r'.needs[k]? ≠ some .failed) ∨ (r'.status = .flashFault ∧ s0.fsq.state = .faulted) := by
      intro same unfailed
      rw [same]
      refine h.status.imp_left fun ⟨ok, none_failed⟩ => ⟨ok, fun k => ?_⟩
      by_cases e : k = m
      · exact e ▸ unfailed
      · obtain same | ⟨-, fill⟩ := g.others k e
        · exact same ▸ none_failed k
        · simp [fill]
    obtain ⟨have_line, same, -⟩ | ⟨-, fault, faulted, -⟩ | ⟨same, fill | ⟨way | slot, -⟩⟩ := g.outcome
    · exact kept same (by simp [have_line])
    · exact .inr ⟨fault, fsq ▸ faulted⟩
    · exact kept same (by simp [fill])
    · exact kept same (by simp [way])
    · exact kept same (by simp [slot])
  case pinned =>
    intro pin all
    have last := all m (Nat.lt_succ_self m)
    have earlier : ∀ k < m, r.needs[k]? = some .haveLine := fun k hk => by
      have after := all k (by omega)
      obtain same | ⟨-, fill⟩ := g.others k (by omega)
      · exact same ▸ after
      · simp [fill] at after
    have counted := h.pinned pin earlier
    have kind : r.kind = .pin := by rw [h.same]; exact pin
    obtain ⟨-, -, -, up⟩ | ⟨failed, -⟩ | ⟨-, fill | ⟨way | slot, -⟩⟩ := g.outcome
    · rw [up kind, counted]
    · simp [failed] at last
    · simp [fill] at last
    · simp [way] at last
    · simp [slot] at last
  case created =>
    have kept : ¬ t.fills.length ≠ s.fills.length →
        t.fills.length = s0.fills.length ∨ ∃ k : Nat, r'.needs[k]? = some .waitFill := by
      intro same
      refine h.created.imp (fun e => (not_not.mp same).trans e) fun ⟨k, hk⟩ => ⟨k, ?_⟩
      obtain same | ⟨-, fill⟩ := g.others k fun e => by simp [e ▸ hk] at now
      · exact same.trans hk
      · exact fill
    obtain ⟨-, -, none_new, -⟩ | ⟨-, -, -, none_new⟩ | ⟨-, fill | ⟨-, none_new⟩⟩ := g.outcome
    · exact kept none_new
    · exact kept none_new
    · exact .inr ⟨m, fill⟩
    · exact kept none_new

theorem lookups_tablesOnly (s : State) (id : RecordId) (is : List Nat) : s.TablesOnly (s.lookups id is) :=
  .foldl (fun t i => .lookup t ⟨id, i⟩) is s

/-- The lookups of a new record's needs, in ascending line index (R5, R29, R31). -/
theorem lookups_progress {s : State} {rs : List Record} {r : Record} (h : s.HasLast rs r)
    (new : ∀ k, k < r.needs.length → r.needs[k]? = some .waitRelease) (status : r.status = .ok) (pinned : r.pinnedCount = 0)
    {m : Nat} (hm : m ≤ r.needs.length) :
    ∃ rs' r', (s.lookups r.id (List.range m)).HasLast rs' r' ∧
      Record.Progress s (s.lookups r.id (List.range m)) r r' m := by
  induction m with
  | zero =>
    refine ⟨rs, r, h, rfl, rfl, fun k _ hk => new k hk, .inl ⟨status, fun k hk => ?_⟩, fun _ _ => pinned, .inl rfl⟩
    have bound := (List.getElem?_eq_some_iff.mp hk).1
    simp [new k bound] at hk
  | succ m ih =>
    obtain ⟨rs', r', last, progress⟩ := ih (by omega)
    have id : r'.id = r.id := by rw [progress.same]; rfl
    have step : s.lookups r.id (List.range (m + 1)) = (s.lookups r.id (List.range m)).lookup ⟨r'.id, m⟩ := by
      rw [State.lookups, List.range_succ, List.foldl_append, id]
      rfl
    obtain ⟨rs'', r'', last', looked⟩ := lookup_lookedUp last (i := m) (by rw [progress.size]; omega)
    rw [step]
    exact ⟨rs'', r'', last', progress.next (by omega) (lookups_tablesOnly s _ _).fsq looked⟩

end Sys2Proof.Machine
end

section
/-! PROOFS. The checks of a PIN, and its acceptance. -/

namespace Sys2Proof.Machine

/-! ### What FSQ does of itself changes no record -/

theorem suspendedDecision_flashSide (s : State) : s.FlashSideOnly s.suspendedDecision := by
  unfold State.suspendedDecision
  split_ifs
  · rfl
  · rfl
  · split
    · rfl
    · rfl

/-- What FSQ does of itself: with the port free it may arbitrate, else it changes only entries, jobs and itself. -/
theorem kick_cases (s : State) :
    s.FlashSideOnly s.kick ∨ (s.fsq.port.isSome = false ∧ s.kick = s.applyProfile.choose) := by
  unfold State.kick
  split
  · exact .inl (.refl s)
  · next port =>
    split
    · exact .inr ⟨Bool.eq_false_of_not_eq_true port, rfl⟩
    · split
      · exact .inl rfl
      · exact .inl (.refl s)
    · exact .inl (suspendedDecision_flashSide s)
    · exact .inl (.refl s)

/-- With no profile to apply, or the port in use, it does only that. -/
theorem kick_flashSide {s : State} (h : s.fsq.pendingProfile = none ∨ s.fsq.port.isSome = true) :
    s.FlashSideOnly s.kick := by
  obtain only | ⟨port, chosen⟩ := kick_cases s
  · exact only
  · rw [chosen, applyProfile_eq_self (h.resolve_right (by simp [port]))]
    exact choose_flashSide s

/-- A profile is applied beside the tables. -/
theorem applyProfile_records (s : State) : s.applyProfile.records = s.records := by
  unfold State.applyProfile State.answerProfile
  split
  · rfl
  · split_ifs
    · rfl
    · exact place_records _ _ _ _

theorem place_link_framesTaken (s : State) (l k : Link) (x : Byte) (m : Message) :
    ((s.place l x m).link k).framesTaken = (s.link k).framesTaken := by
  by_cases e : k = l
  · rw [e, place_link, place_framesTaken]
  · rw [place_link_other _ _ _ _ _ e]

theorem applyProfile_framesTaken (s : State) (l : Link) : (s.applyProfile.link l).framesTaken = (s.link l).framesTaken := by
  unfold State.applyProfile State.answerProfile
  split
  · rfl
  · split_ifs
    · cases l <;> rfl
    · rw [place_link_framesTaken]
      cases l <;> rfl

theorem kick_records (s : State) : s.kick.records = s.records := by
  obtain only | ⟨-, chosen⟩ := kick_cases s
  · exact only.records
  · rw [chosen, (choose_flashSide _).records, applyProfile_records]

theorem kick_framesTaken (s : State) (l : Link) : (s.kick.link l).framesTaken = (s.link l).framesTaken := by
  obtain only | ⟨-, chosen⟩ := kick_cases s
  · rw [only.links.link]
  · rw [chosen, (choose_flashSide _).links.link, applyProfile_framesTaken]

/-! ### The two ends of an acceptance -/

/-- The record of an accepted request, as `Accepted` tells it. -/
def Record.isOf (x : Record) (rk : RecordKind) (l : Link) (tag : Byte) (r : Range) (s : State) : Prop :=
  x.link = l ∧ x.session = (s.link l).session ∧ x.tag = tag ∧ x.kind = rk ∧ x.base = r.base ∧ x.length = r.length ∧
  x.needs.length = lineCount r.base r.length

section Accepted

variable {k : Kind} {rk : RecordKind} {l : Link} {tag : Byte} {r : Range} {s u : State}

/-- A request whose record stands, whatever FSQ then does of itself. -/
theorem accepted_of_waits (links : LinksSame (s.afterTake l) u) (fsq : u.fsq = s.fsq) {x : Record} (hx : x ∈ u.records)
    (own : x.isOf rk l tag r s) : Accepted k rk l tag r s (kickIfCreated (s.afterTake l) u) := by
  have taken := frameTaken_of_linksSame links
  obtain ⟨hlink, hsession, htag, hkind, hbase, hlength, hneeds⟩ := own
  have frames : (u.link l).framesTaken = (s.link l).framesTaken + 1 := taken.2.2.1
  unfold kickIfCreated
  split_ifs
  · refine ⟨(kick_framesTaken u l).trans frames, .inl ⟨x, by rwa [kick_records], hlink, hsession, htag, hkind, hbase, hlength,
      hneeds, fun still => ?_⟩⟩
    exact frameTaken_of_linksSame (links.trans (kick_flashSide (by rwa [fsq])).links)
  · exact ⟨frames, .inl ⟨x, hx, hlink, hsession, htag, hkind, hbase, hlength, hneeds, fun _ => taken⟩⟩

/-- A request that is answered at once, with no entry created for it. -/
theorem accepted_of_answer (ho : (s.link l).isOpen = true) (links : LinksSame (s.afterTake l) u) {m : Message}
    (kind : m.kind = replyKind (kindCode k)) (mtag : m.tag = tag)
    (status : m.status = .ok ∨ (m.status = .flashFault ∧ s.fsq.state = .faulted))
    (no_data : rk = .read → m.status = .flashFault → m.payload = [])
    (count : rk = .pin → m.status = .ok → m.payload = leBytes 2 (lineCount r.base r.length))
    (gone : ∀ x ∈ u.records, ¬(x.link = l ∧ x.tag = tag)) :
    Accepted k rk l tag r s (u.place l (s.link l).session m) := by
  have answered := answered_of_linksSame m ho links
  have frames : ((u.place l (s.link l).session m).link l).framesTaken = (s.link l).framesTaken + 1 := answered.2.2.1
  exact ⟨frames, .inr ⟨m, answered.1, answered, kind, mtag, status, no_data, count, by rwa [place_records]⟩⟩

end Accepted

/-! ### A PIN is accepted -/

/-- The reply of a PIN that is complete: with OK it counts every line (R37). -/
theorem pin_reply {s t : State} {r0 r : Record} (h : Record.Progress s t r0 r r0.needs.length) (hk : r0.kind = .pin)
    (complete : r.isComplete = true) : r.reply = replyMessage .pin r0.tag r.status (leBytes 2 r.pinnedCount) ∧
      (r.status = .ok → r.pinnedCount = r0.needs.length) ∧ ∀ k : Nat, r.needs[k]? ≠ some .waitFill := by
  have kind : r.kind = .pin := by rw [h.same]; exact hk
  have tag : r.tag = r0.tag := by rw [h.same]
  have settled : ∀ n ∈ r.needs, n = .haveLine ∨ n = .failed := by simpa [Record.isComplete, kind] using complete
  refine ⟨by simp [Record.reply, kind, tag], fun ok => h.pinned hk fun k hk => ?_, fun k hk => ?_⟩
  · have bound : k < r.needs.length := h.size ▸ hk
    have unfailed : ∀ k : Nat, r.needs[k]? ≠ some .failed := by
      obtain ⟨-, unfailed⟩ | ⟨fault, -⟩ := h.status
      · exact unfailed
      · exact absurd (ok.symm.trans fault) (by decide)
    have at_k := List.getElem?_eq_getElem bound
    obtain line | failed := settled _ (List.getElem_mem bound)
    · rw [at_k, line]
    · exact absurd (at_k.trans (congrArg some failed)) (unfailed k)
  · simpa using settled _ (List.mem_of_getElem? hk)

theorem withdraw_fills_length (s : State) (id : RecordId) : (s.withdraw id).fills.length = s.fills.length := by
  simp [State.withdraw]

/-- A PIN that passes its checks is answered at once, or its record stands (R31). -/
theorem acceptPin_accepted {l : Link} {tag : Byte} {p : List Byte} {s : State} (ho : (s.link l).isOpen = true)
    (unused : ∀ q ∈ s.records, q.id ≠ { link := l, tag := tag }) :
    Accepted .pin .pin l tag (payloadRange p 2) s ((s.afterTake l).acceptPin
      { link := l, session := (s.link l).session, tag := tag, payload := p } (payloadRange p 2)) := by
  obtain ⟨r0, hr0⟩ : ∃ r0, r0 = newRecord { link := l, session := (s.link l).session, tag := tag, payload := p } .pin
    (payloadRange p 2) := ⟨_, rfl⟩
  obtain ⟨c, hc⟩ : ∃ c, c = (s.afterTake l).claimed r0 (s.unpinnedLines (payloadRange p 2)) := ⟨_, rfl⟩
  have needs : r0.needs = List.replicate (lineCount (payloadRange p 2).base (payloadRange p 2).length) .waitRelease := by
    rw [hr0]; rfl
  have new : ∀ k, k < r0.needs.length → r0.needs[k]? = some .waitRelease := fun k hk => by
    rw [needs, List.length_replicate] at hk
    rw [needs, List.getElem?_replicate, if_pos hk]
  have claimed := claimed_eq (s.afterTake l) r0 (s.unpinnedLines (payloadRange p 2))
  have last : c.HasLast s.records r0 := by
    refine ⟨?_, by rw [hr0]; exact unused⟩
    rw [hc, claimed, ← afterTake_records s l]
    rfl
  have claimed_links : LinksSame (s.afterTake l) c := by
    rw [hc, claimed]
    exact ⟨rfl, rfl, rfl, rfl, rfl, rfl⟩
  have claimed_fsq : c.fsq = s.fsq := by
    rw [hc, claimed]
    exact afterTake_fsq s l
  have claimed_fills : c.fills = (s.afterTake l).fills := by
    rw [hc, claimed]
    rfl
  obtain ⟨rs, r, standing, progress⟩ := lookups_progress last new
    (by rw [hr0]; rfl) (by rw [hr0]; rfl) (le_refl r0.needs.length)
  have only := lookups_tablesOnly c r0.id (List.range r0.needs.length)
  obtain ⟨u, hu⟩ : ∃ u, u = c.lookups r0.id (List.range r0.needs.length) := ⟨_, rfl⟩
  rw [← hu] at standing progress only
  have links := claimed_links.trans only.links
  have id : r.id = r0.id := by rw [progress.same]; rfl
  have kind : r0.kind = .pin := by rw [hr0]; rfl
  have own : r.isOf .pin l tag (payloadRange p 2) s := by
    have size : r.needs.length = lineCount (payloadRange p 2).base (payloadRange p 2).length := by
      rw [progress.size, needs, List.length_replicate]
    rw [progress.same, hr0]
    exact ⟨rfl, rfl, rfl, rfl, rfl, rfl, size⟩
  have run : (s.afterTake l).acceptPin { link := l, session := (s.link l).session, tag := tag, payload := p }
      (payloadRange p 2) = kickIfCreated (s.afterTake l) (u.settle r.id) := by
    rw [State.acceptPin, ← hr0, afterTake_unpinnedLines, hu, hc, id]
    rfl
  rw [run]
  cases complete : r.isComplete with
  | false =>
    rw [settle_of_last_waiting standing complete]
    exact accepted_of_waits links (only.fsq.trans claimed_fsq) (by rw [standing.1]; simp) own
  | true =>
    obtain ⟨reply, counts, none_waits⟩ := pin_reply progress kind complete
    have no_entry : u.fills.length = c.fills.length := progress.created.resolve_right fun ⟨k, hk⟩ => none_waits k hk
    obtain ⟨hlink, hsession, htag, -⟩ := own
    rw [settle_of_last standing complete, hlink, hsession, kickIfCreated, if_neg]
    · have gone : LinksSame u { u.withdraw r.id with records := rs } := ⟨rfl, rfl, rfl, rfl, rfl, rfl⟩
      refine accepted_of_answer ho (links.trans gone) ?_ ?_ ?_ ?_ ?_ ?_
      · rw [reply]; rfl
      · rw [reply, hr0]; rfl
      · rw [reply]
        exact progress.status.imp And.left fun ⟨fault, faulted⟩ => ⟨fault, claimed_fsq ▸ faulted⟩
      · exact fun e => absurd e (by decide)
      · intro _ ok
        rw [reply] at ok ⊢
        show leBytes 2 r.pinnedCount = _
        rw [counts ok, needs, List.length_replicate]
      · intro x hx e
        exact standing.2 x hx (by rw [Record.id, Record.id, e.1, e.2, hlink, htag])
    · rw [place_fills]
      show ¬ (s.afterTake l).fills.length < (u.withdraw r.id).fills.length
      rw [withdraw_fills_length, no_entry, claimed_fills]
      exact lt_irrefl _

/-! ### The checks of a PIN -/

theorem tagInUse_iff {q : Request} {s : State} :
    s.tagInUse q = true ↔ ∃ r ∈ s.records, r.link = q.link ∧ r.tag = q.tag := by
  simp [State.tagInUse, State.record, List.find?_isSome, Record.id]

theorem overlapsHold_iff {r : Range} {s : State} :
    s.overlapsHold r = true ↔ ∃ j ∈ s.jq.jobs, ∃ h, j.range = some h ∧ shareLine r h = true := by
  simp only [State.overlapsHold, State.holds, List.any_eq_true, List.mem_filterMap]
  constructor
  · rintro ⟨h, ⟨j, hj, hr⟩, share⟩
    exact ⟨j, hj, h, hr, share⟩
  · rintro ⟨j, hj, h, hr, share⟩
    exact ⟨h, ⟨j, hj, hr⟩, share⟩

theorem pinLimitExceeded_iff {r : Range} {s : State} : s.pinLimitExceeded r = true ↔
    ∃ i : Fin 128, 3 < (s.set i).pinnedWays + (s.set i).claims +
      ((spannedLines r.base r.length).filter (fun a => setIndex a = i && !s.linePinned a)).length := by
  simp [State.pinLimitExceeded, State.unpinnedLines, List.filter_filter, pinLimit]

theorem tableBusy_iff {l : Link} {s : State} : s.tableBusy l = true ↔ 12 ≤ (s.recordsOf l).length := by
  exact decide_eq_true_iff

theorem pinBody_refuses {q : Request} {s : State} {st : Status} (h : firstFailure (pinChecks q s) = some st) :
    pinBody q s = q.refuse .pin st s := by rw [pinBody, h]

theorem pinBody_accepts {q : Request} {s : State} (h : firstFailure (pinChecks q s) = none) :
    pinBody q s = s.acceptPin q (payloadRange q.payload 2) := by rw [pinBody, h]

theorem lengthBad_iff {n m : Nat} : (decide (n = 0) || decide (m < n)) = true ↔ n = 0 ∨ m < n := by
  simp

/-- A PIN on an OPEN link, at one of its checks: it is refused with the check's status, or the rest decides. -/
theorem pin_check {l : Link} {tag : Byte} {p : List Byte} {s : State} (ho : (s.link l).isOpen = true) {b : Bool}
    {st : Status} {cs : List (Bool × Status)} {P A : Prop} (dec : Decidable P)
    (left : firstFailure (pinChecks { link := l, session := (s.link l).session, tag := tag, payload := p } s) =
      firstFailure ((b, st) :: cs)) (test : b = true ↔ P)
    (rest : firstFailure (pinChecks { link := l, session := (s.link l).session, tag := tag, payload := p } s) =
      firstFailure cs → A) :
    if P then Refused .pin l tag p st s
      (pinBody { link := l, session := (s.link l).session, tag := tag, payload := p } (s.afterTake l)) else A := by
  rw [firstFailure_cons] at left
  split
  · next fails =>
    rw [if_pos (test.mpr fails)] at left
    rw [pinBody_refuses (by rw [pinChecks_afterTake, left])]
    exact refused_at_once _ _ _ _ ho
  · next passes =>
    rw [if_neg (mt test.mp passes)] at left
    exact rest left

/-- Settles O22: the first check that fails refuses; with none the PIN is accepted. -/
theorem pinIsChecked : Obligations.PinIsChecked := by
  intro l tag p s ht ho hp
  refine ⟨_, exec_request ht ho (by simp [wrongSize, fixedSize, hp]), ?_⟩
  dsimp only [bodyOf]
  refine pin_check ho _ rfl lengthBad_iff fun left => ?_
  refine pin_check ho _ left beyond_iff fun left => ?_
  refine pin_check ho _ left tagInUse_iff fun left => ?_
  refine pin_check ho _ left overlapsHold_iff fun left => ?_
  refine pin_check ho _ left overlapsPin_iff fun left => ?_
  -- P is read off the goal before the test names it: comparing the decisions over 128 sets goes too deep
  refine @pin_check _ _ _ _ ho ?check _ ?more _ _ _ ?left ?test ?rest
  case left => exact left
  case test => exact pinLimitExceeded_iff
  intro left
  refine pin_check ho _ left tableBusy_iff fun left => ?_
  have passed := left.trans firstFailure_nil
  rw [pinBody_accepts (by rw [pinChecks_afterTake, passed])]
  exact acceptPin_accepted ho (fresh_of_pinChecks passed)

end Sys2Proof.Machine
end

section
/-! PROOFS. A fill's arrival, step by step: its own way, its waiters, the queues, and how FSQ goes on. -/

namespace Sys2Proof.Machine

/-! ### The command -/

/-- An arrival for an entry of the table (R50). -/
theorem exec_fillArrival {data : List Byte} {f : Fill} {s : State} (hd : data.length = 64)
    (hp : s.portIs (.fillRead f.line) = true) (hf : s.fill f.line = some f) :
    exec (.fillArrival data) s = .next ((s.endPort.arrive f data).afterFill) := by
  have line : s.readLine = some f.line := by
    unfold State.portIs at hp
    unfold State.readLine
    cases port : s.fsq.port with
    | none => simp [port] at hp
    | some t =>
      have : t.use = .fillRead f.line := by simpa [port] using hp
      simp only [this]
  have size : ¬ data.length ≠ lineSize := not_not.mpr hd
  show execFillArrival data s = _
  unfold execFillArrival
  simp only [line, if_neg size, hf]

theorem fill_of_single {s : State} {f : Fill} (h : s.fills = [f]) : s.fill f.line = some f := by
  simp [State.fill, h]

/-! ### Steps 1 and 2: the way and the entry -/

/-- The entry's way is installed, or is INVALID again if the entry is doomed; then the entry is gone (R50). -/
def State.ended (s : State) (f : Fill) (data : List Byte) : State :=
  (if f.doomed then s.releaseWay f
   else match f.way with
    | some v => s.updSet (setIndex f.line) (fun c => c.install v (cacheTag f.line) (s.pinWaits f) data)
    | none => s).removeFill f.line

/-- What a waiter of the entry gets: its bytes, or a new lookup (R51 to R53). -/
def Fill.serveWaiter (f : Fill) (data : List Byte) (s : State) (w : Waiter) : State :=
  if f.doomed then s.returnToLookup w
  else match f.way with
    | some _ => s.deliver data w
    | none => s.deliverBypass data w

theorem arrive_eq (s : State) (f : Fill) (data : List Byte) :
    s.arrive f data = (f.waiters.foldl (f.serveWaiter data) (s.ended f data)).afterEnd f.line := by
  have handler : f.serveWaiter data = fun (t : State) w =>
      if f.doomed then t.returnToLookup w
      else match f.way with
        | some _ => t.deliver data w
        | none => t.deliverBypass data w := rfl
  unfold State.arrive State.ended
  rw [handler]
  cases f.doomed with
  | true => rfl
  | false =>
    cases f.way with
    | none => rfl
    | some v => rfl

section Ended

variable (s : State) (f : Fill) (data : List Byte)

/-- Only the entry, and the set it is of, may differ. -/
theorem ended_eq : s.ended f data =
    { s with cache := (s.ended f data).cache, fills := s.fills.filter (fun g => g.line ≠ f.line) } := by
  unfold State.ended State.releaseWay
  cases f.doomed <;> cases f.way <;> rfl

theorem ended_records : (s.ended f data).records = s.records := by rw [ended_eq]
theorem ended_fills : (s.ended f data).fills = s.fills.filter (fun g => g.line ≠ f.line) := by rw [ended_eq]
theorem ended_fsq : (s.ended f data).fsq = s.fsq := by rw [ended_eq]
theorem ended_jq : (s.ended f data).jq = s.jq := by rw [ended_eq]
theorem ended_counters : (s.ended f data).counters = s.counters := by rw [ended_eq]
theorem ended_links : LinksSame s (s.ended f data) := by rw [ended_eq]; exact ⟨rfl, rfl, rfl, rfl, rfl, rfl⟩

theorem ended_cache_doomed (h : f.doomed = true) : (s.ended f data).cache = (s.releaseWay f).cache := by
  rw [State.ended, if_pos h, removeFill_cache]

theorem ended_set_doomed (h : f.doomed = true) {v : Fin 4} (hv : f.way = some v) :
    (s.ended f data).set (setIndex f.line) = (s.set (setIndex f.line)).drop v := by
  have cache : (s.ended f data).cache = (s.updSet (setIndex f.line) (fun c => c.drop v)).cache := by
    rw [ended_cache_doomed s f data h, State.releaseWay, hv]
  rw [set_eq_of_cache cache, updSet_set]

theorem ended_cache_installed (h : f.doomed = false) {v : Fin 4} (hv : f.way = some v) : (s.ended f data).cache =
    (s.updSet (setIndex f.line) (fun c => c.install v (cacheTag f.line) (s.pinWaits f) data)).cache := by
  rw [State.ended, if_neg (by simp [h]), removeFill_cache, hv]

theorem ended_cache_bypass (h : f.doomed = false) (hv : f.way = none) : (s.ended f data).cache = s.cache := by
  rw [State.ended, if_neg (by simp [h]), removeFill_cache, hv]

theorem ended_set_other {i : Fin 128} (hi : i ≠ setIndex f.line) : (s.ended f data).set i = s.set i := by
  cases doomed : f.doomed with
  | true =>
    rw [set_eq_of_cache (ended_cache_doomed s f data doomed), State.releaseWay]
    split
    · rfl
    · exact updSet_set_other _ _ _ _ (Ne.symm hi)
  | false =>
    cases way : f.way with
    | none => exact set_eq_of_cache (ended_cache_bypass s f data doomed way) i
    | some v =>
      rw [set_eq_of_cache (ended_cache_installed s f data doomed way), updSet_set_other _ _ _ _ (Ne.symm hi)]

end Ended

/-! ### Step 3: a waiter -/

/-- A READ of one line gets its bytes and is answered. -/
theorem deliver_read {s : State} {rs : List Record} {r : Record} (h : s.HasLast rs r) {n : NeedState}
    (hn : r.needs = [n]) (hk : r.kind = .read) (hst : r.status = .ok) (hb : r.buffer.length = r.length)
    (hr : r.base % 64 + r.length ≤ 64) (hw : ∀ f ∈ s.fills, ∀ w ∈ f.waiters, w.id ≠ r.id) (data : List Byte) :
    s.deliver data ⟨r.id, 0⟩ = ({ s with records := rs } : State).place r.link r.session
      (replyMessage .read r.tag .ok ((data.drop (r.base % 64)).take r.length)) := by
  unfold State.deliver
  simp only [record_of_last h, hk]
  exact settle_read h hn hk hst hb hr hw data

/-- A PIN of one line has it, its claim goes, and it is answered. -/
theorem deliver_pin {s : State} {rs : List Record} {r : Record} (h : s.HasLast rs r) {n : NeedState}
    (hn : r.needs = [n]) (hk : r.kind = .pin) (hw : ∀ f ∈ s.fills, ∀ w ∈ f.waiters, w.id ≠ r.id) (data : List Byte) :
    s.deliver data ⟨r.id, 0⟩ = ({ s.dropClaim (r.lineOf 0) with records := rs } : State).place r.link r.session
      (replyMessage .pin r.tag r.status (leBytes 2 (r.pinnedCount + 1))) := by
  unfold State.deliver
  simp only [record_of_last h, hk]
  exact settle_pin (s := s.dropClaim (r.lineOf 0)) (h.of_records (by rfl)) hn hk hw

theorem deliverBypass_read {s : State} {rs : List Record} {r : Record} (h : s.HasLast rs r) (hk : r.kind = .read) {i : Nat}
    (data : List Byte) : s.deliverBypass data ⟨r.id, i⟩ = s.deliver data ⟨r.id, i⟩ := by
  unfold State.deliverBypass
  simp only [record_of_last h, hk]

theorem deliverBypass_pin {s : State} {rs : List Record} {r : Record} (h : s.HasLast rs r) (hk : r.kind = .pin) {i : Nat}
    (data : List Byte) : s.deliverBypass data ⟨r.id, i⟩ = s.returnToLookup ⟨r.id, i⟩ := by
  unfold State.deliverBypass
  simp only [record_of_last h, hk]

/-- A READ that overlaps a hold parks where it would be looked up (R53, R85). -/
theorem returnToLookup_parks {s : State} {rs : List Record} {r : Record} (h : s.HasLast rs r) (hk : r.kind = .read)
    (hold : s.overlapsHold r.range = true) {i : Nat} : s.returnToLookup ⟨r.id, i⟩ = s.park r.id := by
  unfold State.returnToLookup
  simp [record_of_last h, hk, hold]

theorem returnToLookup_looks {s : State} {rs : List Record} {r : Record} (h : s.HasLast rs r)
    (free : r.kind = .read → s.overlapsHold r.range = false) {i : Nat} :
    s.returnToLookup ⟨r.id, i⟩ = (s.lookup ⟨r.id, i⟩).settle r.id := by
  unfold State.returnToLookup
  cases hk : r.kind with
  | read => simp [record_of_last h, hk, free hk]
  | pin => simp [record_of_last h, hk]

theorem park_of_last {s : State} {rs : List Record} {r : Record} (h : s.HasLast rs r) {n : NeedState}
    (hn : r.needs = [n]) (have_not : n ≠ .haveLine) : s.park r.id =
      ({ s with records := rs ++ [{ r with state := .parked, needs := [.waitRelease] }] } : State).withdraw r.id := by
  rw [State.park, updRecord_of_last h]
  simp [hn, have_not]

/-- A need that returns to lookup and misses creates the entry of its line. -/
theorem returnToLookup_creates {s : State} {rs : List Record} {r : Record} (h : s.HasLast rs r) {n : NeedState}
    (hn : r.needs = [n]) (slots : ∀ q ∈ rs, NeedState.waitSlot ∉ q.needs)
    (free : r.kind = .read → s.overlapsHold r.range = false)
    (miss : (s.set (setIndex r.base)).hit (cacheTag r.base) = none) (running : s.fsq.state ≠ .faulted)
    (fresh : ∀ f ∈ s.fills, f.line ≠ lineAddress r.base) (room : s.fills.length < 8)
    (way : r.kind = .read ∨ (s.set (setIndex r.base)).victim ≠ none) :
    s.returnToLookup ⟨r.id, 0⟩ = s.entered rs r := by
  have set := setIndex_lineOf_zero (r := r) rfl
  have waits : (s.entered rs r).HasLast rs { r with needs := [.waitFill] } := ⟨rfl, h.2⟩
  have incomplete : ({ r with needs := [.waitFill] } : Record).isComplete = false := by
    unfold Record.isComplete
    split
    · rfl
    · rfl
  rw [returnToLookup_looks h free, lookup_miss h (by rw [set, cacheTag_lineOf_zero (r := r) rfl]; exact miss),
    missNeed_creates r _ running (by rw [lineOf_zero]; exact fresh) room,
    missCreate_of_last h hn slots (by rw [set]; exact way)]
  exact settle_of_last_waiting (r := { r with needs := [_] }) waits incomplete

/-- A PIN's need that misses with no victim waits for a way. -/
theorem returnToLookup_waits {s : State} {rs : List Record} {r : Record} (h : s.HasLast rs r) {n : NeedState}
    (hn : r.needs = [n]) (hk : r.kind = .pin) (miss : (s.set (setIndex r.base)).hit (cacheTag r.base) = none)
    (running : s.fsq.state ≠ .faulted) (fresh : ∀ f ∈ s.fills, f.line ≠ lineAddress r.base) (room : s.fills.length < 8)
    (no_way : (s.set (setIndex r.base)).victim = none) :
    s.returnToLookup ⟨r.id, 0⟩ = { s.countMiss with records := rs ++ [{ r with needs := [.waitWay] }] } := by
  have set := setIndex_lineOf_zero (r := r) rfl
  have waits : ({ s.countMiss with records := rs ++ [{ r with needs := [.waitWay] }] } : State).HasLast rs
      { r with needs := [.waitWay] } := ⟨rfl, h.2⟩
  have incomplete : ({ r with needs := [.waitWay] } : Record).isComplete = false := by simp [Record.isComplete, hk]
  rw [returnToLookup_looks h (fun e => absurd (hk.symm.trans e) (by decide)),
    lookup_miss h (by rw [set, cacheTag_lineOf_zero (r := r) rfl]; exact miss),
    missNeed_creates r _ running (by rw [lineOf_zero]; exact fresh) room,
    missCreate_waits h hn hk (by rw [set]; exact no_way)]
  exact settle_of_last_waiting (r := { r with needs := [_] }) waits incomplete

/-! ### Steps 4 and 5: the slot queue and the way retries -/

theorem slotQueue_eq_nil {s : State} (h : ∀ r ∈ s.records, NeedState.waitSlot ∉ r.needs) : s.slotQueue = [] :=
  needsIn_eq_nil h

theorem wayWaiters_eq_nil {s : State} (h : ∀ r ∈ s.records, NeedState.waitWay ∉ r.needs) (i : Fin 128) :
    s.wayWaiters i = [] := by
  rw [State.wayWaiters, needsIn_eq_nil h]
  rfl

/-- With no need in either queue nothing more is done. -/
theorem afterEnd_of_idle {s : State} (slot : ∀ r ∈ s.records, NeedState.waitSlot ∉ r.needs)
    (way : ∀ r ∈ s.records, NeedState.waitWay ∉ r.needs) (a : Nat) : s.afterEnd a = s := by
  unfold State.afterEnd
  rw [slotQueue_eq_nil slot]
  show (s.wayWaiters (setIndex a)).foldl _ s = s
  rw [wayWaiters_eq_nil way]
  rfl

/-- The needs of a table of one record with one need. -/
theorem needsIn_single {s : State} {r : Record} (h : s.records = [r]) {n : NeedState} (hn : r.needs = [n]) :
    s.needsIn n = [⟨r.id, 0⟩] := by
  simp [State.needsIn, h, Record.indexed, hn]

theorem needIs_of_last {s : State} {rs : List Record} {r : Record} (h : s.HasLast rs r) {n : NeedState}
    (hn : r.needs = [n]) : s.needIs ⟨r.id, 0⟩ n = true := by
  simp [State.needIs, record_of_last h, hn]

/-- The one need in the slot queue is handed the free entry (R48). -/
theorem afterEnd_hands_slot {s : State} {r : Record} (h : s.records = [r]) (hn : r.needs = [.waitSlot])
    (room : s.fills.length < 8) {a : Nat} (way : ∀ q ∈ (s.returnToLookup ⟨r.id, 0⟩).records, NeedState.waitWay ∉ q.needs) :
    s.afterEnd a = s.returnToLookup ⟨r.id, 0⟩ := by
  have free : (s.fillFree && s.needIs ⟨r.id, 0⟩ .waitSlot) = true := by
    rw [needIs_of_last (rs := []) ⟨h, by simp⟩ hn, Bool.and_true]
    exact decide_eq_true room
  have handed : handSlots s.slotQueue s = s.returnToLookup ⟨r.id, 0⟩ := by
    rw [State.slotQueue, needsIn_single h hn, handSlots, if_pos free]
    exact ite_self _
  rw [State.afterEnd, handed, wayWaiters_eq_nil way]
  rfl

/-- The one need that waits for a way of the set is retried (R33). -/
theorem afterEnd_retries_way {s : State} {r : Record} (h : s.records = [r]) (hn : r.needs = [.waitWay]) {a : Nat}
    (set : setIndex r.base = setIndex a) : s.afterEnd a = s.returnToLookup ⟨r.id, 0⟩ := by
  have last : s.HasLast [] r := ⟨h, by simp⟩
  have line : (s.waiterLine ⟨r.id, 0⟩).map setIndex = some (setIndex a) := by
    rw [State.waiterLine, record_of_last last, ← set, ← setIndex_lineOf_zero (r := r) rfl]
    rfl
  have waiters : s.wayWaiters (setIndex a) = [⟨r.id, 0⟩] := by
    rw [State.wayWaiters, needsIn_single h hn]
    exact List.filter_eq_self.mpr fun w hw => by rw [List.mem_singleton.mp hw]; exact decide_eq_true line
  rw [State.afterEnd, slotQueue_eq_nil (by simp [h, hn])]
  show (s.wayWaiters (setIndex a)).foldl State.retryWay s = _
  rw [waiters, List.foldl_cons, List.foldl_nil, State.retryWay, if_pos (needIs_of_last last hn)]

/-! ### How FSQ goes on -/

/-- The records, the cache and the counters are as before, and at most one entry's read has been begun. -/
structure State.GoesOn (s t : State) : Prop where
  records : t.records = s.records
  cache : t.cache = s.cache
  counters : t.counters = s.counters
  fills : t.fills = s.fills ∨ ∃ a, t.fills = transferring a s.fills

namespace State.GoesOn

theorem refl (s : State) : s.GoesOn s := ⟨rfl, rfl, rfl, .inl rfl⟩

/-- What precedes changes none of it. -/
theorem of_same {s t u : State} (h : t.GoesOn u) (records : t.records = s.records) (cache : t.cache = s.cache)
    (counters : t.counters = s.counters) (fills : t.fills = s.fills) : s.GoesOn u :=
  ⟨h.records.trans records, h.cache.trans cache, h.counters.trans counters, fills ▸ h.fills⟩

theorem serveOldest (s : State) : s.GoesOn s.serveOldest := by
  rw [State.serveOldest]
  split
  · next f _ => exact ⟨rfl, rfl, rfl, .inr ⟨f.line, rfl⟩⟩
  · exact refl s

theorem choose (s : State) : s.GoesOn s.choose := by
  rw [State.choose]
  split
  · split
    · exact ⟨rfl, rfl, rfl, .inl rfl⟩
    · exact serveOldest s
  · exact serveOldest s

theorem applyProfile_same (s : State) : s.applyProfile.cache = s.cache ∧ s.applyProfile.counters = s.counters ∧
    s.applyProfile.fills = s.fills := by
  unfold State.applyProfile State.answerProfile
  split
  · exact ⟨rfl, rfl, rfl⟩
  · split_ifs
    · exact ⟨rfl, rfl, rfl⟩
    · simp

theorem enterReady (s : State) : s.GoesOn s.enterReady := by
  obtain ⟨cache, counters, fills⟩ := applyProfile_same (s.setFlash .ready)
  exact (choose _).of_same (applyProfile_records _) cache counters fills

theorem suspendedDecision (s : State) : s.GoesOn s.suspendedDecision := by
  unfold State.suspendedDecision
  split_ifs
  · exact ⟨rfl, rfl, rfl, .inl rfl⟩
  · exact ⟨rfl, rfl, rfl, .inl rfl⟩
  · split
    · next f _ => exact ⟨rfl, rfl, rfl, .inr ⟨f.line, rfl⟩⟩
    · exact ⟨rfl, rfl, rfl, .inl rfl⟩

theorem afterFill {s : State} (h : s.fsq.resetDue = false) : s.GoesOn s.afterFill := by
  rw [State.afterFill, if_neg (by simp [h])]
  split_ifs
  · exact suspendedDecision s
  · exact enterReady s

end State.GoesOn

/-- With no job and no profile to apply, FSQ enters READY and serves the oldest WAITING entry (R100, R101). -/
theorem afterFill_serves {s : State} (due : s.fsq.resetDue = false) (state : s.fsq.state = .reading)
    (jobs : s.jq.jobs = []) (profile : s.fsq.pendingProfile = none) : s.afterFill = (s.setFlash .ready).serveOldest := by
  have no_job : (s.setFlash .ready).head = none := by simp [State.head, jobs]
  rw [State.afterFill, if_neg (by simp [due]), if_neg (by simp [state]), State.enterReady,
    arbitrate_of_none (s := s.setFlash .ready) profile,
    choose_of_no_job no_job]

theorem afterFill_ready {s : State} (due : s.fsq.resetDue = false) (state : s.fsq.state = .reading)
    (jobs : s.jq.jobs = []) (profile : s.fsq.pendingProfile = none) (fills : s.fills = []) :
    s.afterFill = s.setFlash .ready := by
  rw [afterFill_serves due state jobs profile, serveOldest_of_none (by simp [State.oldestWaiting, fills])]

theorem afterFill_suspended {s : State} (due : s.fsq.resetDue = false) (state : s.fsq.state = .suspended) :
    s.afterFill = s.suspendedDecision := by
  rw [State.afterFill, if_neg (by simp [due]), if_pos state]

end Sys2Proof.Machine
end

section
/-! PROOFS. What a fill's arrival ends in: the entry's waiter answered, parked or looked up again, and the queues. -/

namespace Sys2Proof.Machine

/-! ### The entry gone and the port free -/

/-- The transaction has ended, the entry's way is settled and the entry is gone; its waiters are still to be served. -/
def State.lineEnded (s : State) (f : Fill) (data : List Byte) : State := s.endPort.ended f data

section LineEnded

variable {s : State} {f : Fill} {data : List Byte}

theorem lineEnded_records : (s.lineEnded f data).records = s.records := ended_records _ f data
theorem lineEnded_fills : (s.lineEnded f data).fills = s.fills.filter (fun g => g.line ≠ f.line) := ended_fills _ f data
theorem lineEnded_fsq : (s.lineEnded f data).fsq = { s.fsq with port := none } := ended_fsq _ f data
theorem lineEnded_counters : (s.lineEnded f data).counters = s.counters := ended_counters _ f data
theorem lineEnded_links : LinksSame s (s.lineEnded f data) :=
  LinksSame.trans (t := s.endPort) ⟨rfl, rfl, rfl, rfl, rfl, rfl⟩ (ended_links _ f data)

theorem lineEnded_jobSide : JobSideSame s (s.lineEnded f data) := by
  unfold State.lineEnded
  rw [ended_eq]
  exact ⟨rfl, rfl, rfl⟩

theorem lineEnded_set_other {i : Fin 128} (hi : i ≠ setIndex f.line) : (s.lineEnded f data).set i = s.set i :=
  ended_set_other _ f data hi

theorem lineEnded_set_doomed (h : f.doomed = true) {v : Fin 4} (hv : f.way = some v) :
    (s.lineEnded f data).set (setIndex f.line) = (s.set (setIndex f.line)).drop v := ended_set_doomed _ f data h hv

theorem lineEnded_set_installed (h : f.doomed = false) {v : Fin 4} (hv : f.way = some v) :
    (s.lineEnded f data).set (setIndex f.line) =
      (s.set (setIndex f.line)).install v (cacheTag f.line) (s.pinWaits f) data :=
  (set_eq_of_cache (ended_cache_installed s.endPort f data h hv) _).trans (updSet_set ..)

theorem lineEnded_cache_bypass (h : f.doomed = false) (hv : f.way = none) : (s.lineEnded f data).cache = s.cache :=
  ended_cache_bypass _ f data h hv

theorem lineEnded_fills_of_single (h : s.fills = [f]) : (s.lineEnded f data).fills = [] := by
  rw [lineEnded_fills, h]
  simp

/-- The entry gone, one more is free. -/
theorem lineEnded_room (h : s.fill f.line = some f) (bound : s.fills.length ≤ 8) : (s.lineEnded f data).fills.length < 8 := by
  have here : f ∈ s.fills := List.mem_of_find?_eq_some h
  have fewer : (s.fills.filter (fun g => g.line ≠ f.line)).length < s.fills.length :=
    List.length_filter_lt_length_iff_exists.mpr ⟨f, here, by simp⟩
  rw [lineEnded_fills]
  omega

theorem lineEnded_overlapsHold (r : Range) : (s.lineEnded f data).overlapsHold r = s.overlapsHold r := by
  rw [State.overlapsHold, State.holds, lineEnded_jobSide.1]
  rfl

/-- The state an arrival is an end of, told from the entry's end on. -/
theorem exec_arrival (hd : data.length = 64) (hp : s.portIs (.fillRead f.line) = true) (hf : s.fill f.line = some f) :
    exec (.fillArrival data) s =
      .next ((f.waiters.foldl (f.serveWaiter data) (s.lineEnded f data)).afterEnd f.line).afterFill := by
  rw [exec_fillArrival hd hp hf, arrive_eq]
  rfl

/-- The waiter of an entry that is not doomed and is bound to a way. -/
theorem serveWaiter_installed (h : f.doomed = false) {v : Fin 4} (hv : f.way = some v) (t : State) (w : Waiter) :
    f.serveWaiter data t w = t.deliver data w := by
  simp [Fill.serveWaiter, h, hv]

theorem serveWaiter_bypass (h : f.doomed = false) (hv : f.way = none) (t : State) (w : Waiter) :
    f.serveWaiter data t w = t.deliverBypass data w := by
  simp [Fill.serveWaiter, h, hv]

theorem serveWaiter_doomed (h : f.doomed = true) (t : State) (w : Waiter) :
    f.serveWaiter data t w = t.returnToLookup w := by
  simp [Fill.serveWaiter, h]

/-- An entry with one waiter. -/
theorem exec_arrival_one (hd : data.length = 64) (hp : s.portIs (.fillRead f.line) = true) (hf : s.fill f.line = some f)
    {w : Waiter} (hw : f.waiters = [w]) :
    exec (.fillArrival data) s =
      .next ((f.serveWaiter data (s.lineEnded f data) w).afterEnd f.line).afterFill := by
  rw [exec_arrival hd hp hf, hw]
  rfl

theorem exec_arrival_none (hd : data.length = 64) (hp : s.portIs (.fillRead f.line) = true) (hf : s.fill f.line = some f)
    (hw : f.waiters = []) :
    exec (.fillArrival data) s = .next ((s.lineEnded f data).afterEnd f.line).afterFill := by
  rw [exec_arrival hd hp hf, hw]
  rfl

theorem lineEnded_last {r : Record} (h : s.records = [r]) : (s.lineEnded f data).HasLast [] r :=
  ⟨lineEnded_records.trans h, by simp⟩

theorem lineEnded_no_waiter (h : s.fills = [f]) (id : RecordId) :
    ∀ g ∈ (s.lineEnded f data).fills, ∀ w ∈ g.waiters, w.id ≠ id := by
  simp [lineEnded_fills_of_single h]

end LineEnded

/-! ### The one record is answered and FSQ is READY -/

/-- The state once the one record's reply is placed and FSQ has found nothing to do. -/
def State.answeredReady (c : State) (r : Record) (m : Message) : State :=
  (({ c with records := [] } : State).place r.link r.session m).setFlash .ready

section AnsweredReady

variable {c : State} {r : Record} {m : Message}

theorem afterEnd_answered (a : Nat) (due : c.fsq.resetDue = false) (state : c.fsq.state = .reading) (jobs : c.jq.jobs = [])
    (profile : c.fsq.pendingProfile = none) (fills : c.fills = []) :
    ((({ c with records := [] } : State).place r.link r.session m).afterEnd a).afterFill = c.answeredReady r m := by
  rw [afterEnd_of_idle (by simp) (by simp), afterFill_ready (by simpa) (by simpa) (by simpa) (by simpa) (by simpa)]
  rfl

theorem setFlash_link (s : State) (x : FlashState) (l : Link) : (s.setFlash x).link l = s.link l := by
  cases l <;> rfl

theorem answeredReady_records : (c.answeredReady r m).records = [] := by simp [State.answeredReady]
theorem answeredReady_fills : (c.answeredReady r m).fills = c.fills := by simp [State.answeredReady]
theorem answeredReady_cache : (c.answeredReady r m).cache = c.cache := by simp [State.answeredReady]
theorem answeredReady_counters : (c.answeredReady r m).counters = c.counters := by simp [State.answeredReady]
theorem answeredReady_fsq : (c.answeredReady r m).fsq = { c.fsq with state := .ready } := by simp [State.answeredReady]
theorem answeredReady_jobSide : JobSideSame c (c.answeredReady r m) := by simp [State.answeredReady, JobSideSame]

theorem answeredReady_set (i : Fin 128) : (c.answeredReady r m).set i = c.set i := set_eq_of_cache answeredReady_cache i

theorem answeredReady_link : (c.answeredReady r m).link r.link = (c.link r.link).place r.session m := by
  rw [State.answeredReady, setFlash_link, place_link]
  cases r.link <;> rfl

theorem answeredReady_fifo (reserved : r.session ∈ (c.link r.link).reserved) (isOpen : (c.link r.link).isOpen = true) :
    ((c.answeredReady r m).link r.link).fifo = (c.link r.link).fifo ++ [m] := by
  rw [answeredReady_link, place_fifo, if_pos ⟨reserved, isOpen⟩]

theorem answeredReady_reserved (reserved : r.session ∈ (c.link r.link).reserved) :
    ((c.answeredReady r m).link r.link).reserved = (c.link r.link).reserved.erase r.session := by
  rw [answeredReady_link, place_reserved, if_pos reserved]

end AnsweredReady

/-! ### A normal arrival -/

/-- FSQ reads a line for the one entry, and nothing else is to be done. -/
structure ReadsAlone (data : List Byte) (f : Fill) (s : State) : Prop where
  size : data.length = 64
  fills : s.fills = [f]
  port : s.portIs (.fillRead f.line) = true
  due : s.fsq.resetDue = false
  state : s.fsq.state = .reading
  jobs : s.jq.jobs = []
  profile : s.fsq.pendingProfile = none

section ReadsAlone

variable {data : List Byte} {f : Fill} {s : State} (h : ReadsAlone data f s) {r : Record}
include h

theorem ReadsAlone.exec_one {w : Waiter} (hw : f.waiters = [w]) : exec (.fillArrival data) s =
    .next ((f.serveWaiter data (s.lineEnded f data) w).afterEnd f.line).afterFill :=
  exec_arrival_one h.size h.port (fill_of_single h.fills) hw

/-- Whatever of the cache is changed besides, the one record is answered and FSQ is READY. -/
theorem ReadsAlone.answered {c : State} (fsq : c.fsq = (s.lineEnded f data).fsq) (jq : c.jq = (s.lineEnded f data).jq)
    (fills : c.fills = (s.lineEnded f data).fills) (m : Message) :
    ((({ c with records := [] } : State).place r.link r.session m).afterEnd f.line).afterFill = c.answeredReady r m := by
  rw [lineEnded_fsq] at fsq
  rw [lineEnded_fills_of_single h.fills] at fills
  rw [lineEnded_jobSide.1] at jq
  exact afterEnd_answered f.line (by rw [fsq]; exact h.due) (by rw [fsq]; exact h.state) (by rw [jq]; exact h.jobs)
    (by rw [fsq]; exact h.profile) fills

/-- A READ gets its bytes from an arrival, installed or bypass (R51, R52). -/
theorem ReadsAlone.read_answered (hr : s.records = [r]) (live : f.doomed = false)
    (hw : f.waiters = [{ id := r.id, index := 0 }]) (hk : r.kind = .read) (hn : r.needs = [.waitFill])
    (hst : r.status = .ok) (hb : r.buffer.length = r.length) (one : r.base % 64 + r.length ≤ 64) :
    exec (.fillArrival data) s = .next ((s.lineEnded f data).answeredReady r
      (replyMessage .read r.tag .ok ((data.drop (r.base % 64)).take r.length))) := by
  have served : f.serveWaiter data (s.lineEnded f data) ⟨r.id, 0⟩ = (s.lineEnded f data).deliver data ⟨r.id, 0⟩ := by
    cases way : f.way with
    | some v => exact serveWaiter_installed live way _ _
    | none => rw [serveWaiter_bypass live way, deliverBypass_read (lineEnded_last hr) hk]
  rw [h.exec_one hw, served,
    deliver_read (lineEnded_last hr) hn hk hst hb one (lineEnded_no_waiter h.fills r.id), h.answered rfl rfl rfl]

/-- A PIN gets its line from a normal arrival, and its claim goes (R9, R51). -/
theorem ReadsAlone.pin_answered (hr : s.records = [r]) (live : f.doomed = false) {v : Fin 4} (hv : f.way = some v)
    (hw : f.waiters = [{ id := r.id, index := 0 }]) (hk : r.kind = .pin) (hn : r.needs = [.waitFill]) :
    exec (.fillArrival data) s = .next (((s.lineEnded f data).dropClaim (r.lineOf 0)).answeredReady r
      (replyMessage .pin r.tag r.status (leBytes 2 (r.pinnedCount + 1)))) := by
  rw [h.exec_one hw, serveWaiter_installed live hv,
    deliver_pin (lineEnded_last hr) hn hk (lineEnded_no_waiter h.fills r.id)]
  exact congrArg Host.Outcome.next (h.answered (c := (s.lineEnded f data).dropClaim (r.lineOf 0)) rfl rfl rfl _)

/-- With nothing to serve or to hand on, FSQ is READY. -/
theorem ReadsAlone.idle (hr : s.records = []) (hw : f.waiters = []) :
    exec (.fillArrival data) s = .next ((s.lineEnded f data).setFlash .ready) := by
  have none_waits : ∀ r ∈ (s.lineEnded f data).records, False := by simp [lineEnded_records, hr]
  have fsq := lineEnded_fsq (s := s) (f := f) (data := data)
  rw [exec_arrival_none h.size h.port (fill_of_single h.fills) hw,
    afterEnd_of_idle (fun r m => absurd (none_waits r m) id) (fun r m => absurd (none_waits r m) id),
    afterFill_ready (by rw [fsq]; exact h.due) (by rw [fsq]; exact h.state) (by rw [lineEnded_jobSide.1]; exact h.jobs)
      (by rw [fsq]; exact h.profile) (lineEnded_fills_of_single h.fills)]

end ReadsAlone

/-- A READ or a PIN waits for the entry, and no other waiter is of a PIN (R9). -/
theorem pinWaits_of_single {s : State} {f : Fill} {r : Record} (hr : s.records = [r])
    (hw : f.waiters = [{ id := r.id, index := 0 }]) : s.pinWaits f = decide (r.kind = .pin) := by
  simp [State.pinWaits, hw, record_of_last (rs := []) (r := r) ⟨hr, by simp⟩]

end Sys2Proof.Machine
end

section
/-! PROOFS. A fill's arrival: every way it can end. -/

namespace Sys2Proof.Machine

/-! ### What FSQ's going on leaves of the entries -/

theorem transferring_lines (a : Nat) (fs : List Fill) : (transferring a fs).map Fill.line = fs.map Fill.line := by
  rw [transferring, List.map_map]
  refine List.map_congr_left fun f _ => ?_
  dsimp only [Function.comp]
  split
  · rfl
  · rfl

theorem State.GoesOn.lines {s t : State} (h : s.GoesOn t) : t.fills.map Fill.line = s.fills.map Fill.line := by
  obtain same | ⟨a, served⟩ := h.fills
  · rw [same]
  · rw [served, transferring_lines]

theorem State.GoesOn.set {s t : State} (h : s.GoesOn t) (i : Fin 128) : t.set i = s.set i := set_eq_of_cache h.cache i

/-- An entry stands, but for its phase. -/
theorem State.GoesOn.entry {s t : State} (h : s.GoesOn t) {f : Fill} (hf : f ∈ s.fills) :
    ∃ x, { f with phase := x } ∈ t.fills := by
  obtain same | ⟨a, served⟩ := h.fills
  · exact ⟨f.phase, same ▸ hf⟩
  · by_cases here : f.line = a
    · exact ⟨.transfer, served ▸ List.mem_map.mpr ⟨f, hf, if_pos here⟩⟩
    · exact ⟨f.phase, served ▸ List.mem_map.mpr ⟨f, hf, if_neg here⟩⟩

theorem State.GoesOn.no_entry {s t : State} (h : s.GoesOn t) (hf : s.fills = []) : t.fills = [] :=
  List.map_eq_nil_iff.mp (h.lines.trans (by rw [hf]; rfl))

theorem State.GoesOn.one_entry {s t : State} (h : s.GoesOn t) {f : Fill} (hf : s.fills = [f]) :
    ∃ x, t.fills = [{ f with phase := x }] := by
  have one : t.fills.length = 1 := by simpa [hf] using congrArg List.length h.lines
  obtain ⟨g, hg⟩ := List.length_eq_one_iff.mp one
  obtain ⟨x, hx⟩ := h.entry (f := f) (by simp [hf])
  rw [hg, List.mem_singleton] at hx
  exact ⟨x, by rw [hg, hx]⟩

theorem withdraw_lines (s : State) (id : RecordId) : (s.withdraw id).fills.map Fill.line = s.fills.map Fill.line := by
  rw [State.withdraw, List.map_map]
  rfl

/-! ### A waiter parks -/

section Parks

variable {data : List Byte} {f : Fill} {r : Record} {s : State}

/-- A record of one need once it has parked. -/
def Record.parkedOne (r : Record) : Record := { r with state := .parked, needs := [.waitRelease] }

/-- The one record has parked; its entry is gone, and FSQ has not gone on yet. -/
def State.lineEndedParked (s : State) (f : Fill) (data : List Byte) (r : Record) : State :=
  ({ s.lineEnded f data with records := [r.parkedOne] } : State).withdraw r.id

theorem lineEnded_parks (hr : s.records = [r]) (hk : r.kind = .read) {n : NeedState} (hn : r.needs = [n])
    (have_not : n ≠ .haveLine) (hold : s.overlapsHold r.range = true) :
    (s.lineEnded f data).returnToLookup ⟨r.id, 0⟩ = s.lineEndedParked f data r := by
  rw [returnToLookup_parks (lineEnded_last hr) hk (by rw [lineEnded_overlapsHold, hold]),
    park_of_last (lineEnded_last hr) hn have_not]
  rfl

theorem lineEndedParked_afterEnd (a : Nat) : (s.lineEndedParked f data r).afterEnd a = s.lineEndedParked f data r :=
  afterEnd_of_idle (by simp [State.lineEndedParked, Record.parkedOne]) (by simp [State.lineEndedParked, Record.parkedOne]) a

theorem lineEndedParked_goesOn (due : s.fsq.resetDue = false) :
    (s.lineEndedParked f data r).GoesOn (s.lineEndedParked f data r).afterFill :=
  .afterFill (by rw [State.lineEndedParked, withdraw_fsq, lineEnded_fsq]; exact due)

theorem lineEndedParked_set (i : Fin 128) : (s.lineEndedParked f data r).set i = (s.lineEnded f data).set i := rfl

theorem lineEndedParked_counters : (s.lineEndedParked f data r).counters = s.counters := lineEnded_counters

theorem lineEndedParked_lines : (s.lineEndedParked f data r).fills.map Fill.line =
    (s.fills.filter (fun g => g.line ≠ f.line)).map Fill.line := by
  rw [State.lineEndedParked, withdraw_lines]
  exact congrArg _ lineEnded_fills

end Parks

/-! ### A need of the one record creates an entry -/

section Creates

variable {data : List Byte} {f : Fill} {r : Record} {s : State}

/-- What a new lookup of the one record's need comes to, where its set is `c` by then. -/
theorem lineEnded_creates {n : NeedState} (hr : s.records = [r]) (hn : r.needs = [n])
    (free : r.kind = .read → s.overlapsHold r.range = false)
    (miss : ((s.lineEnded f data).set (setIndex r.base)).hit (cacheTag r.base) = none) (running : s.fsq.state ≠ .faulted)
    (fresh : ∀ g ∈ s.fills, g.line ≠ f.line → g.line ≠ lineAddress r.base) (room : (s.lineEnded f data).fills.length < 8)
    (way : r.kind = .read ∨ ((s.lineEnded f data).set (setIndex r.base)).victim ≠ none) :
    (s.lineEnded f data).returnToLookup ⟨r.id, 0⟩ = (s.lineEnded f data).entered [] r := by
  refine returnToLookup_creates (lineEnded_last hr) hn (by simp) (fun e => by rw [lineEnded_overlapsHold, free e]) miss
    (by rw [lineEnded_fsq]; exact running) (fun g hg => ?_) room way
  rw [lineEnded_fills, List.mem_filter] at hg
  exact fresh g hg.1 (by simpa using hg.2)

/-- No need is left in a queue. -/
theorem entered_afterEnd (c : State) (a : Nat) : (c.entered [] r).afterEnd a = c.entered [] r :=
  afterEnd_of_idle (by simp) (by simp) a

theorem entered_lineEnded_goesOn (due : s.fsq.resetDue = false) :
    ((s.lineEnded f data).entered [] r).GoesOn ((s.lineEnded f data).entered [] r).afterFill :=
  .afterFill (by rw [entered_fsq, lineEnded_fsq]; exact due)

end Creates

/-- A way just dropped is the victim (R6). -/
theorem victim_drop (c : CacheSet) (v : Fin 4) : (c.drop v).victim = some v := by
  have last : (c.drop v).recency.reverse.find? (fun w => (c.drop v).ways[w] = .invalid) = some v := by
    rw [drop_recency, List.reverse_append, List.reverse_singleton]
    exact List.find?_cons_of_pos (decide_eq_true (drop_self c v))
  rw [CacheSet.victim, last]

/-! ### The cases of an arrival -/

/-- Whatever a lone arrival serves, the job side stands. -/
theorem ReadsAlone.jobSide {data : List Byte} {f : Fill} {s : State} (h : ReadsAlone data f s) :
    ∃ t, exec (.fillArrival data) s = .next t ∧ JobSideSame s t := by
  refine ⟨_, exec_fillArrival h.size h.port (fill_of_single h.fills), ?_⟩
  obtain ⟨fsq, jq, staging, protection, -⟩ := arrive_only s.endPort f data
  have fields : (s.endPort.arrive f data).fsq = { s.fsq with port := none } := fsq
  rw [afterFill_serves (by rw [fields]; exact h.due) (by rw [fields]; exact h.state) (by rw [jq]; exact h.jobs)
    (by rw [fields]; exact h.profile)]
  have served := serveOldest_flashSide ((s.endPort.arrive f data).setFlash .ready)
  refine ⟨?_, served.staging.trans staging, served.protection.trans protection⟩
  rw [State.serveOldest]
  split
  · exact jq
  · exact jq

/-- A bypass arrival's PIN is looked up again, creates an entry for the victim, and FSQ serves it (R52, R102). -/
theorem ReadsAlone.bypass_pin_served {data : List Byte} {f : Fill} {s : State} (h : ReadsAlone data f s) {r : Record}
    (hr : s.records = [r]) (live : f.doomed = false) (hv : f.way = none)
    (hw : f.waiters = [{ id := r.id, index := 0 }]) (hk : r.kind = .pin) {n : NeedState} (hn : r.needs = [n])
    (line : lineAddress r.base = f.line) (miss : (s.set (setIndex f.line)).hit (cacheTag f.line) = none)
    {w : Fin 4} (victim : (s.set (setIndex f.line)).victim = some w) :
    exec (.fillArrival data) s =
      .next ((((s.lineEnded f data).entered [] r).setFlash .ready).serveFill (freshFill f.line (some w) ⟨r.id, 0⟩)) := by
  have set : (s.lineEnded f data).set (setIndex r.base) = s.set (setIndex f.line) := by
    rw [set_eq_of_cache (lineEnded_cache_bypass live hv), ← line, setIndex_lineAddress]
  have tag : cacheTag r.base = cacheTag f.line := by rw [← line, cacheTag_lineAddress]
  have gone := lineEnded_fills_of_single (data := data) h.fills
  have looked := lineEnded_creates (data := data) (f := f) hr hn (fun e => absurd (hk.symm.trans e) (by decide))
    (by rw [set, tag, miss]) (by simp [h.state]) (fun g hg ne => absurd (by simpa [h.fills] using hg) fun e => ne (by rw [e]))
    (by simp [gone]) (.inr (by rw [set, victim]; exact Option.some_ne_none w))
  have entry : ((s.lineEnded f data).entered [] r).fills = [freshFill f.line (some w) ⟨r.id, 0⟩] := by
    rw [entered_fills, gone, setIndex_lineOf_zero rfl, lineOf_zero, set, victim, line]
    rfl
  have fsq : ((s.lineEnded f data).entered [] r).fsq = { s.fsq with port := none } := by rw [entered_fsq, lineEnded_fsq]
  rw [h.exec_one hw, serveWaiter_bypass live hv, deliverBypass_pin (lineEnded_last hr) hk, looked, entered_afterEnd,
    afterFill_serves (by rw [fsq]; exact h.due) (by rw [fsq]; exact h.state)
      (by rw [entered_jq, lineEnded_jobSide.1]; exact h.jobs) (by rw [fsq]; exact h.profile),
    serveOldest_of_some (f := freshFill f.line (some w) ⟨r.id, 0⟩)]
  exact oldestWaiting_append (s := ((s.lineEnded f data).entered [] r).setFlash .ready) (fs := []) entry (by simp) rfl

/-- The one record's need has missed with no victim, and waits for a way (R44). -/
def State.wayMissed (c : State) (r : Record) : State := { c.countMiss with records := [{ r with needs := [.waitWay] }] }

section WayMissed

variable {c : State} {r : Record}

theorem wayMissed_last : (c.wayMissed r).HasLast [] { r with needs := [.waitWay] } := ⟨rfl, by simp⟩

@[simp] theorem wayMissed_records : (c.wayMissed r).records = [{ r with needs := [.waitWay] }] := rfl
@[simp] theorem wayMissed_fills : (c.wayMissed r).fills = c.fills := rfl
@[simp] theorem wayMissed_cache : (c.wayMissed r).cache = c.cache := rfl
@[simp] theorem wayMissed_counters :
    (c.wayMissed r).counters = { c.counters with lookupMiss := c.counters.lookupMiss + 1 } := rfl

/-- A retry that finds no victim either leaves it waiting, with one miss more (R33). -/
theorem wayMissed_again (hk : r.kind = .pin) (miss : (c.set (setIndex r.base)).hit (cacheTag r.base) = none)
    (running : c.fsq.state ≠ .faulted) (gone : c.fills = []) (no_way : (c.set (setIndex r.base)).victim = none) {a : Nat}
    (set : setIndex r.base = setIndex a) : (c.wayMissed r).afterEnd a = (c.wayMissed r).wayMissed r := by
  rw [afterEnd_retries_way wayMissed_last.1 rfl set,
    returnToLookup_waits (s := c.wayMissed r) wayMissed_last rfl hk miss running (by simp [gone]) (by simp [gone]) no_way]
  rfl

end WayMissed

/-- With no victim it waits for a way, is retried at once, and waits again (R33, R52). -/
theorem ReadsAlone.bypass_pin_waits {data : List Byte} {f : Fill} {s : State} (h : ReadsAlone data f s) {r : Record}
    (hr : s.records = [r]) (live : f.doomed = false) (hv : f.way = none)
    (hw : f.waiters = [{ id := r.id, index := 0 }]) (hk : r.kind = .pin) {n : NeedState} (hn : r.needs = [n])
    (line : lineAddress r.base = f.line) (miss : (s.set (setIndex f.line)).hit (cacheTag f.line) = none)
    (no_way : (s.set (setIndex f.line)).victim = none) :
    exec (.fillArrival data) s = .next ((((s.lineEnded f data).wayMissed r).wayMissed r).setFlash .ready) := by
  have index : setIndex r.base = setIndex f.line := by rw [← line, setIndex_lineAddress]
  have set : (s.lineEnded f data).set (setIndex r.base) = s.set (setIndex f.line) := by
    rw [set_eq_of_cache (lineEnded_cache_bypass live hv), index]
  have missed : ((s.lineEnded f data).set (setIndex r.base)).hit (cacheTag r.base) = none := by
    rw [set, ← cacheTag_lineAddress r.base, line, miss]
  have gone := lineEnded_fills_of_single (data := data) h.fills
  have fsq := lineEnded_fsq (s := s) (f := f) (data := data)
  have jobs : (s.lineEnded f data).jq.jobs = [] := by rw [lineEnded_jobSide.1]; exact h.jobs
  have running : (s.lineEnded f data).fsq.state ≠ .faulted := by rw [fsq]; simp [h.state]
  have waits : (s.lineEnded f data).returnToLookup ⟨r.id, 0⟩ = (s.lineEnded f data).wayMissed r :=
    returnToLookup_waits (lineEnded_last hr) hn hk missed running (by simp [gone]) (by simp [gone]) (by rw [set, no_way])
  rw [h.exec_one hw, serveWaiter_bypass live hv, deliverBypass_pin (lineEnded_last hr) hk, waits,
    wayMissed_again hk missed running gone (by rw [set, no_way]) index,
    afterFill_ready (s := ((s.lineEnded f data).wayMissed r).wayMissed r) (fsq ▸ h.due) (fsq ▸ h.state) jobs
      (fsq ▸ h.profile) gone]

end Sys2Proof.Machine
end

section
/-! PROOFS. A fill's arrival: the queues, SUSPENDED, and the obligation. -/

namespace Sys2Proof.Machine

/-! ### SUSPENDED -/

section Suspended

variable {s : State}

/-- FSQ's decision in SUSPENDED leaves it SUSPENDED (R127). -/
theorem suspendedDecision_state (s : State) : s.suspendedDecision.fsq.state = s.fsq.state := by
  unfold State.suspendedDecision
  split_ifs
  · rfl
  · rfl
  · split
    · rfl
    · rfl

theorem suspendedDecision_resumes (h : s.fsq.active.fillBudget ≤ s.fsq.fillsServed ∨ s.fsq.pendingProfile.isSome = true) :
    s.suspendedDecision = s.beginResume := by
  unfold State.suspendedDecision
  by_cases profile : s.fsq.pendingProfile.isSome = true
  · rw [if_pos profile]
  · rw [if_neg profile, if_pos (h.resolve_right profile)]

/-- Within the budget the oldest WAITING entry is served. -/
theorem suspendedDecision_serves (budget : s.fsq.fillsServed < s.fsq.active.fillBudget)
    (profile : s.fsq.pendingProfile = none) {f : Fill} (oldest : s.oldestWaiting = some f) : s.suspendedDecision =
      { s with
        fills := transferring f.line s.fills
        fsq := { s.fsq.reads f.line with fillsServed := s.fsq.fillsServed + 1 } } := by
  rw [State.suspendedDecision, if_neg (by simp [profile]), if_neg (by omega), oldest]
  rfl

/-- With none waiting the erase is resumed. -/
theorem suspendedDecision_none_waits (profile : s.fsq.pendingProfile = none) (oldest : s.oldestWaiting = none) :
    s.suspendedDecision = s.beginResume := by
  rw [State.suspendedDecision, if_neg (by simp [profile]), oldest]
  exact ite_self _

end Suspended

/-- With no record in use an arrival for no waiter changes the entry's way and no more, and FSQ decides. -/
theorem exec_arrival_suspended {data : List Byte} {f : Fill} {s : State} (hd : data.length = 64)
    (hp : s.portIs (.fillRead f.line) = true) (hf : s.fill f.line = some f) (due : s.fsq.resetDue = false)
    (state : s.fsq.state = .suspended) :
    exec (.fillArrival data) s = .next (s.endPort.arrive f data).suspendedDecision := by
  have fsq : (s.endPort.arrive f data).fsq = { s.fsq with port := none } := (arrive_only s.endPort f data).1
  rw [exec_fillArrival hd hp hf, afterFill_suspended (by rw [fsq]; exact due) (by rw [fsq]; exact state)]

/-- With the budget spent, or a profile pending, the erase is resumed (R127, R128). -/
theorem suspended_resumes {data : List Byte} {f : Fill} {s : State}
    (spent : s.fsq.active.fillBudget ≤ s.fsq.fillsServed ∨ s.fsq.pendingProfile.isSome = true) :
    (s.endPort.arrive f data).suspendedDecision.fsq =
      s.fsq.sending ⟨.resume, s.fsq.active.resumeCommand, [], [], 0, 0, 1⟩ ∧
    (s.endPort.arrive f data).suspendedDecision.jq = s.jq := by
  obtain ⟨fsq, jq, -⟩ := arrive_only s.endPort f data
  have free : (s.endPort.arrive f data).fsq = { s.fsq with port := none } := fsq
  rw [suspendedDecision_resumes (by rw [free]; exact spent), State.beginResume, begin_fsq, begin_jq, free, jq]
  exact ⟨rfl, rfl⟩

/-- With no record in use and no waiter, an arrival ends its entry and does no more. -/
theorem arrive_idle {data : List Byte} {f : Fill} {s : State} (records : s.records = []) (waiters : f.waiters = []) :
    s.endPort.arrive f data = s.lineEnded f data := by
  have none_waits : ∀ r ∈ (s.lineEnded f data).records, False := by simp [lineEnded_records, records]
  rw [arrive_eq, waiters]
  exact afterEnd_of_idle (fun r m => absurd (none_waits r m) id) (fun r m => absurd (none_waits r m) id) _

theorem lineEnded_oldestWaiting {data : List Byte} {f : Fill} {s : State} : (s.lineEnded f data).oldestWaiting =
    (s.fills.filter (fun g => g.line ≠ f.line)).find? (fun g => g.phase = .waiting) := by
  rw [State.oldestWaiting, lineEnded_fills]

theorem jobSideSame_trans {s t u : State} (h : JobSideSame s t) (g : JobSideSame t u) : JobSideSame s u :=
  ⟨g.1.trans h.1, g.2.1.trans h.2.1, g.2.2.trans h.2.2⟩

/-- A miss with a victim is counted, and no bypass fill is. -/
theorem entered_counters_of_victim (s : State) (rs : List Record) (r : Record) {v : Fin 4}
    (h : (s.set (setIndex (r.lineOf 0))).victim = some v) :
    (s.entered rs r).counters = { s.counters with lookupMiss := s.counters.lookupMiss + 1 } := by
  rw [State.entered, h, if_neg (Option.some_ne_none v), count_add_zero]

/-! ### The queues -/

/-- The one record waits for a slot, and an entry with no waiter ends. -/
structure SlotFrees (data : List Byte) (f : Fill) (r : Record) (s : State) : Prop where
  size : data.length = 64
  port : s.portIs (.fillRead f.line) = true
  due : s.fsq.resetDue = false
  records : s.records = [r]
  entry : s.fill f.line = some f
  waiters : f.waiters = []
  kind : r.kind = .read
  needs : r.needs = [.waitSlot]
  bound : s.fills.length ≤ 8

section SlotFrees

variable {data : List Byte} {f : Fill} {r : Record} {s : State} (h : SlotFrees data f r s)
include h

/-- The need is handed the slot: it is looked up again (R48). -/
theorem SlotFrees.exec {t : State} (ht : (s.lineEnded f data).returnToLookup ⟨r.id, 0⟩ = t)
    (way : ∀ q ∈ t.records, NeedState.waitWay ∉ q.needs) : exec (.fillArrival data) s = .next t.afterFill := by
  subst ht
  rw [exec_arrival_none h.size h.port h.entry h.waiters,
    afterEnd_hands_slot (lineEnded_records.trans h.records) h.needs (lineEnded_room h.entry h.bound) way]

theorem SlotFrees.parks (hold : s.overlapsHold r.range = true) : ∃ t, Machine.exec (.fillArrival data) s = .next t ∧
    t.records = [{ r with state := .parked, needs := [.waitRelease] }] ∧ t.counters = s.counters ∧
    t.fills.map Fill.line = (s.fills.filter (fun g => g.line ≠ f.line)).map Fill.line := by
  have on := lineEndedParked_goesOn (f := f) (data := data) (r := r) h.due
  refine ⟨_, h.exec (lineEnded_parks h.records h.kind h.needs (by decide) hold) ?_, on.records,
    on.counters.trans lineEndedParked_counters, on.lines.trans lineEndedParked_lines⟩
  simp [State.lineEndedParked, Record.parkedOne]

theorem SlotFrees.creates (free : s.overlapsHold r.range = false) (fresh : ∀ g ∈ s.fills, g.line ≠ lineAddress r.base)
    (other : setIndex r.base ≠ setIndex f.line) (running : s.fsq.state ≠ .faulted)
    (miss : (s.set (setIndex r.base)).hit (cacheTag r.base) = none) :
    ∃ t, Machine.exec (.fillArrival data) s = .next t ∧ t.records = [{ r with needs := [.waitFill] }] ∧
      t.counters.lookupMiss = s.counters.lookupMiss + 1 ∧
      t.fills.map Fill.line =
        (s.fills.filter (fun g => g.line ≠ f.line)).map Fill.line ++ [lineAddress r.base] ∧
      ∃ g ∈ t.fills, g.line = lineAddress r.base ∧ g.way = (s.set (setIndex r.base)).victim ∧
        g.doomed = false ∧ g.waiters = [{ id := r.id, index := 0 }] := by
  have set : (s.lineEnded f data).set (setIndex r.base) = s.set (setIndex r.base) := lineEnded_set_other other
  have looked := lineEnded_creates (data := data) (f := f) h.records h.needs (fun _ => free) (by rw [set, miss]) running
    (fun g hg _ => fresh g hg) (lineEnded_room h.entry h.bound) (.inl h.kind)
  have on := entered_lineEnded_goesOn (data := data) (f := f) (r := r) h.due
  have fills : ((s.lineEnded f data).entered [] r).fills = s.fills.filter (fun g => g.line ≠ f.line) ++
      [freshFill (lineAddress r.base) (s.set (setIndex r.base)).victim ⟨r.id, 0⟩] := by
    rw [entered_fills, lineEnded_fills, setIndex_lineOf_zero rfl, lineOf_zero, set]
  have misses : ((s.lineEnded f data).entered [] r).counters.lookupMiss = s.counters.lookupMiss + 1 := by
    rw [← lineEnded_counters (s := s) (f := f) (data := data)]
    rfl
  obtain ⟨x, hx⟩ := on.entry (f := freshFill (lineAddress r.base) (s.set (setIndex r.base)).victim ⟨r.id, 0⟩)
    (by rw [fills]; simp)
  refine ⟨_, h.exec looked (by simp), on.records, on.counters ▸ misses, ?_, _, hx, rfl, rfl, rfl, rfl⟩
  rw [on.lines, fills, List.map_append]
  rfl

end SlotFrees

/-- The one record, a PIN, waits for a way of the set; the way a doomed entry frees is its (R33). -/
theorem way_retried {data : List Byte} {f : Fill} {r : Record} {s : State} (hd : data.length = 64)
    (hp : s.portIs (.fillRead f.line) = true) (due : s.fsq.resetDue = false) (hr : s.records = [r]) (hf : s.fills = [f])
    {v : Fin 4} (hv : f.way = some v) (hw : f.waiters = []) (doomed : f.doomed = true) (hk : r.kind = .pin)
    (hn : r.needs = [.waitWay]) (index : setIndex r.base = setIndex f.line) (running : s.fsq.state ≠ .faulted)
    (miss : ((s.set (setIndex r.base)).drop v).hit (cacheTag r.base) = none) :
    ∃ t, exec (.fillArrival data) s = .next t ∧ t.records = [{ r with needs := [.waitFill] }] ∧
      t.set (setIndex r.base) = ((s.set (setIndex r.base)).drop v).putLine v (.filling (cacheTag r.base)) ∧
      t.counters = { s.counters with lookupMiss := s.counters.lookupMiss + 1 } ∧
      ∃ x, t.fills = [⟨lineAddress r.base, some v, false, x, [{ id := r.id, index := 0 }]⟩] := by
  have gone := lineEnded_fills_of_single (data := data) hf
  have set : (s.lineEnded f data).set (setIndex r.base) = (s.set (setIndex r.base)).drop v := by
    rw [index, lineEnded_set_doomed doomed hv]
  have victim : ((s.lineEnded f data).set (setIndex r.base)).victim = some v := by rw [set, victim_drop]
  have looked := lineEnded_creates (data := data) (f := f) hr hn (fun e => absurd (hk.symm.trans e) (by decide))
    (by rw [set, miss]) running (fun g hg ne => absurd (by simpa [hf] using hg) fun e => ne (by rw [e]))
    (by simp [gone]) (.inr (by rw [victim]; exact Option.some_ne_none v))
  have on := entered_lineEnded_goesOn (data := data) (f := f) (r := r) due
  have at_zero : setIndex (r.lineOf 0) = setIndex r.base := setIndex_lineOf_zero rfl
  have fills : ((s.lineEnded f data).entered [] r).fills = [freshFill (lineAddress r.base) (some v) ⟨r.id, 0⟩] := by
    rw [entered_fills, gone, at_zero, lineOf_zero, victim]
    rfl
  have counters : ((s.lineEnded f data).entered [] r).counters =
      { s.counters with lookupMiss := s.counters.lookupMiss + 1 } := by
    rw [entered_counters_of_victim _ _ _ (at_zero ▸ victim), lineEnded_counters]
  obtain ⟨x, one⟩ := on.one_entry fills
  refine ⟨_, ?_, on.records, ?_, on.counters.trans counters, x, one⟩
  · rw [exec_arrival_none hd hp (fill_of_single hf) hw, afterEnd_retries_way (lineEnded_records.trans hr) hn index, looked]
  · have at_line := entered_set_of_victim (s.lineEnded f data) [] r (v := v)
    rw [at_zero, cacheTag_lineOf_zero rfl, set] at at_line
    rw [on.set, at_line (set ▸ victim)]

theorem dropClaim_link (s : State) (a : Nat) (l : Link) : (s.dropClaim a).link l = s.link l := by
  cases l <;> rfl

/-- The entry of a bypass arrival's PIN stands anew, bound to the victim, and its read is on the port. -/
theorem bypassServed_state {data : List Byte} {f : Fill} {r : Record} {s : State} (fills : s.fills = [f])
    (live : f.doomed = false) (hv : f.way = none) (hw : f.waiters = [{ id := r.id, index := 0 }]) (hr : s.records = [r])
    (hn : r.needs = [.waitFill]) (jobs : s.jq.jobs = []) (line : r.lineOf 0 = f.line) {w : Fin 4}
    (victim : (s.set (setIndex f.line)).victim = some w) {t : State}
    (ht : t = (((s.lineEnded f data).entered [] r).setFlash .ready).serveFill (freshFill f.line (some w) ⟨r.id, 0⟩)) :
    t.fills = [{ f with way := some w, phase := .transfer }] ∧ t.records = s.records ∧
      t.set (setIndex f.line) = (s.set (setIndex f.line)).putLine w (.filling (cacheTag f.line)) ∧
      t.counters = { s.counters with lookupMiss := s.counters.lookupMiss + 1 } ∧
      t.fsq = { s.fsq.reads f.line with state := .reading } := by
  have set : (s.lineEnded f data).set (setIndex f.line) = s.set (setIndex f.line) :=
    set_eq_of_cache (lineEnded_cache_bypass live hv) _
  have free : ((s.lineEnded f data).set (setIndex (r.lineOf 0))).victim = some w := by rw [line, set, victim]
  have at_line := entered_set_of_victim (s.lineEnded f data) [] r free
  rw [line, set] at at_line
  have same : ({ r with needs := [.waitFill] } : Record) = r := by rw [← hn]
  rw [ht, serveFill_eq]
  refine ⟨?_, ?_, at_line, ?_, ?_⟩
  · rw [setFlash_fills, entered_fills, lineEnded_fills_of_single fills, free, line]
    simp [transferring, freshFill, live, hw]
  · rw [setFlash_records, entered_records, same, hr]
    rfl
  · rw [setFlash_counters, entered_counters_of_victim _ _ _ free, lineEnded_counters]
  · rw [setFlash_fsq, entered_fsq, lineEnded_fsq, State.headQueued, State.head, setFlash_jq, entered_jq,
      lineEnded_jobSide.1, jobs]
    rfl

/-! ### The obligation -/

/-- Settles O46: each arrival is brought to the state in which the entry has ended, its waiter and the queues are taken
through the lemmas above, and FSQ goes on. -/
theorem fillArrivalEndsTheEntry : Obligations.FillArrivalEndsTheEntry := by
  refine ⟨fun data f v s hd hf hv aligned hp due state jobs profile => ?_, fun data f r s hd hp due hr hf => ?_,
    fun data f s hd hp due hf state => ?_⟩
  · have h : ReadsAlone data f s := ⟨hd, hf, hp, due, state, jobs, profile⟩
    refine ⟨fun r hr live hw hk hn hst hb line one reserved isOpen => ?_,
      fun r hr live hw hk hn line reserved isOpen => ?_, fun hr doomed hw => ?_⟩
    · refine ⟨_, h.read_answered hr live hw hk hn hst hb one, ?_, fun i hi => ?_, answeredReady_records, ?_, ?_, ?_, ?_, ?_, ?_⟩
      · rw [answeredReady_set, lineEnded_set_installed live hv, pinWaits_of_single hr hw, hk]
        rfl
      · rw [answeredReady_set, lineEnded_set_other hi]
      · rw [answeredReady_fills, lineEnded_fills_of_single hf]
      · rw [answeredReady_fifo] <;> rw [lineEnded_links.link]
        · exact reserved
        · exact isOpen
      · rw [answeredReady_reserved] <;> rw [lineEnded_links.link]
        exact reserved
      · rw [answeredReady_fsq, lineEnded_fsq]
      · rw [answeredReady_counters, lineEnded_counters]
      · exact jobSideSame_trans lineEnded_jobSide answeredReady_jobSide
    · have claim : setIndex (r.lineOf 0) = setIndex f.line := by rw [lineOf_zero, line]
      refine ⟨_, h.pin_answered hr live hv hw hk hn, ?_, fun i hi => ?_, answeredReady_records, ?_, ?_, ?_, ?_, ?_⟩
      · rw [answeredReady_set, State.dropClaim, claim, updSet_set, lineEnded_set_installed live hv,
          pinWaits_of_single hr hw, hk]
        rfl
      · rw [answeredReady_set, State.dropClaim, claim, updSet_set_other _ _ _ _ (Ne.symm hi), lineEnded_set_other hi]
      · rw [answeredReady_fills, State.dropClaim, updSet_fills, lineEnded_fills_of_single hf]
      · rw [answeredReady_fifo] <;> rw [dropClaim_link, lineEnded_links.link]
        · exact reserved
        · exact isOpen
      · rw [answeredReady_fsq, State.dropClaim, updSet_fsq, lineEnded_fsq]
      · rw [answeredReady_counters, State.dropClaim, updSet_counters, lineEnded_counters]
      · exact jobSideSame_trans (t := (s.lineEnded f data).dropClaim (r.lineOf 0)) lineEnded_jobSide answeredReady_jobSide
    · obtain ⟨linkA, linkB, -⟩ := lineEnded_links (s := s) (f := f) (data := data)
      refine ⟨_, h.idle hr hw, lineEnded_set_doomed doomed hv, fun i hi => lineEnded_set_other hi, ?_, ?_, linkA, linkB, ?_,
        lineEnded_counters, lineEnded_jobSide⟩
      · rw [setFlash_fills, lineEnded_fills_of_single hf]
      · rw [setFlash_records, lineEnded_records, hr]
      · rw [setFlash_fsq, lineEnded_fsq]
  · refine ⟨fun fills doomed hw hk hn hold => ?_, fun fills live hv hw hn line state jobs profile => ?_,
      fun hw hk hn bound => ?_, fun v hv fills hw doomed hk hn index running miss => ?_⟩
    · have on := lineEndedParked_goesOn (f := f) (data := data) (r := r) due
      refine ⟨(s.lineEndedParked f data r).afterFill, ?_, on.no_entry ?_, on.records, fun v hv => ?_,
        on.counters.trans lineEndedParked_counters⟩
      · rw [exec_arrival_one hd hp hf hw, serveWaiter_doomed doomed, lineEnded_parks hr hk hn (by decide) hold,
          lineEndedParked_afterEnd]
      · exact List.map_eq_nil_iff.mp (lineEndedParked_lines.trans (by simp [fills]))
      · rw [on.set, lineEndedParked_set, lineEnded_set_doomed doomed hv]
    · have h : ReadsAlone data f s := ⟨hd, fills, hp, due, state, jobs, profile⟩
      obtain ⟨t, ht, jobSide⟩ := h.jobSide
      refine ⟨t, ht, jobSide, fun hk hst hb one reserved isOpen => ?_, fun hk miss => ⟨fun w victim => ?_, fun no_way => ?_⟩⟩
      · obtain rfl := Host.Outcome.next.inj (ht.symm.trans (h.read_answered hr live hw hk hn hst hb one))
        refine ⟨answeredReady_cache.trans (lineEnded_cache_bypass live hv), answeredReady_records, ?_, ?_, ?_⟩
        · rw [answeredReady_fills, lineEnded_fills_of_single fills]
        · rw [answeredReady_counters, lineEnded_counters]
        · rw [answeredReady_fifo] <;> rw [lineEnded_links.link]
          · exact reserved
          · exact isOpen
      · obtain rfl := Host.Outcome.next.inj (ht.symm.trans (h.bypass_pin_served hr live hv hw hk hn line miss victim))
        exact bypassServed_state fills live hv hw hr hn jobs ((lineOf_zero r).trans line) victim rfl
      · obtain rfl := Host.Outcome.next.inj (ht.symm.trans (h.bypass_pin_waits hr live hv hw hk hn line miss no_way))
        rw [setFlash_fills, setFlash_cache, setFlash_records, setFlash_counters, wayMissed_fills, wayMissed_fills,
          wayMissed_cache, wayMissed_cache, wayMissed_records, wayMissed_counters, wayMissed_counters]
        refine ⟨lineEnded_fills_of_single fills, lineEnded_cache_bypass live hv, rfl, ?_⟩
        rw [lineEnded_counters]
        simp only [BitVec.add_assoc]
        rfl
    · have h : SlotFrees data f r s := ⟨hd, hp, due, hr, hf, hw, hk, hn, bound⟩
      exact ⟨h.parks, h.creates⟩
    · exact way_retried hd hp due hr fills hv hw doomed hk hn index running miss
  · refine ⟨_, exec_arrival_suspended hd hp hf due state, ?_, fun spent => ?_, fun budget profile records waiters => ?_⟩
    · have fsq : (s.endPort.arrive f data).fsq = { s.fsq with port := none } := (arrive_only s.endPort f data).1
      rw [suspendedDecision_state, fsq]
      exact state
    · obtain ⟨fsq, jq⟩ := suspended_resumes (data := data) (f := f) spent
      rw [fsq]
      exact ⟨rfl, rfl, jq⟩
    · have fsq := lineEnded_fsq (s := s) (f := f) (data := data)
      rw [arrive_idle records waiters]
      dsimp only
      split
      · next g found =>
        rw [suspendedDecision_serves (by rw [fsq]; exact budget) (by rw [fsq]; exact profile)
          (lineEnded_oldestWaiting.trans found), fsq, lineEnded_fills]
        exact ⟨rfl, rfl⟩
      · next found =>
        rw [suspendedDecision_none_waits (by rw [fsq]; exact profile) (lineEnded_oldestWaiting.trans found),
          State.beginResume, begin_fills, begin_fsq, lineEnded_fills, fsq]
        exact ⟨rfl, rfl⟩

end Sys2Proof.Machine
end

section
/-! PROOFS. R59, R75, R103, R23 and R41: the order of the queue and the bounds, kept by every operation of the read path, of
the jobs and of FSQ. -/

namespace Sys2Proof.Machine

/-! ### The bounds -/

/-- The order of the queue and the bounds of R59, R75, R103, R23 and R41, one by one. -/
structure InBounds (s : State) : Prop where
  jobs : s.jq.jobs.length ≤ jobLimit
  queued : ∀ j ∈ s.jq.jobs.tail, j.phase = none
  history : s.jq.history.length ≤ historyLimit
  burst : s.fsq.burst ≤ burstLimit
  records : ∀ l : Link, (s.records.map Record.link).count l ≤ recordLimit
  fills : s.fills.length ≤ fillLimit

/-- What the bounds are of. -/
def State.bounded (s : State) : JobQueue × Nat × List Record × List Fill := (s.jq, s.fsq.burst, s.records, s.fills)

theorem count_links (rs : List Record) (l : Link) :
    (rs.map Record.link).count l = (rs.filter (fun r => r.link = l)).length := by
  rw [List.count_eq_countP, List.countP_map, List.countP_eq_length_filter]
  rfl

theorem inBounds_iff {s : State} : InBounds s ↔ QueueOk s ∧ BoundsOk s := by
  constructor
  · rintro ⟨jobs, queued, history, burst, records, fills⟩
    exact ⟨⟨jobs, queued⟩, history, burst, count_links s.records .a ▸ records .a, count_links s.records .b ▸ records .b,
      fills⟩
  · rintro ⟨⟨jobs, queued⟩, history, burst, ofA, ofB, fills⟩
    refine ⟨jobs, queued, history, burst, fun l => ?_, fills⟩
    rw [count_links]
    cases l
    · exact ofA
    · exact ofB

/-! ### What the bounds rest on -/

theorem appendHistory_length {xs : List HistoryEntry} (h : xs.length ≤ historyLimit) (e : HistoryEntry) :
    (appendHistory xs e).length ≤ historyLimit := by
  unfold appendHistory
  split <;> simp only [List.length_append, List.length_drop, List.length_singleton, historyLimit] at *
  · omega
  · omega

/-- Behind the head of what is left of a queue stand jobs that stood behind its head. -/
theorem tail_eraseIdx_sublist {α : Type} (xs : List α) (i : Nat) : (xs.eraseIdx i).tail.Sublist xs.tail := by
  cases xs with
  | nil => exact .refl _
  | cons x xs =>
    cases i with
    | zero => exact List.tail_sublist xs
    | succ i => exact List.eraseIdx_sublist xs i

/-- Once the head job has ended, the burst counter can rise: it is 0, or there was no job (R103). -/
theorem endJob_no_burst (s : State) (o : Status) :
    (s.endJob 0 o).headQueued = true → (s.endJob 0 o).fsq.burst < burstLimit := by
  cases jobs : s.jq.jobs with
  | nil =>
    have same : s.endJob 0 o = s := by simp [State.endJob, jobs]
    rw [same]
    simp [State.headQueued, State.head, jobs]
  | cons j js =>
    rw [(endJob_head jobs o).2.1]
    exact fun _ => Nat.zero_lt_succ _

theorem applyProfile_burst (s : State) : s.applyProfile.fsq.burst = s.fsq.burst := by
  unfold State.applyProfile State.answerProfile
  split
  · rfl
  · split
    · rfl
    · rw [place_fsq]
      rfl

theorem applyProfile_jq (s : State) : s.applyProfile.jq = s.jq := by
  unfold State.applyProfile State.answerProfile
  split
  · rfl
  · split
    · rfl
    · rw [place_jq]
      rfl

namespace InBounds

variable {s t : State}

/-- The queue stands; of records and entries some may be gone, and the burst counter may be lower. -/
theorem of_le (h : InBounds s) (jq : t.jq = s.jq) (burst : t.fsq.burst ≤ s.fsq.burst)
    (records : (t.records.map Record.link).Sublist (s.records.map Record.link)) (fills : t.fills.length ≤ s.fills.length) :
    InBounds t :=
  ⟨jq ▸ h.jobs, jq ▸ h.queued, jq ▸ h.history, burst.trans h.burst, fun l => (records.count_le l).trans (h.records l),
    fills.trans h.fills⟩

/-- All that is bounded stands. -/
theorem of_same (h : InBounds s) (same : t.bounded = s.bounded) : InBounds t := by
  simp only [State.bounded, Prod.mk.injEq] at same
  obtain ⟨jq, burst, records, fills⟩ := same
  exact h.of_le jq burst.le (by rw [records]) (by rw [fills])

/-- The head job alone changes. -/
theorem updHead (h : InBounds s) (f : Job → Job) : InBounds (s.updHead f) := by
  refine ⟨?_, ?_, h.history, h.burst, h.records, h.fills⟩
  · rw [State.updHead, List.length_modifyHead]
    exact h.jobs
  · rw [State.updHead, List.tail_modifyHead]
    exact h.queued

theorem foldl {α : Type} {f : State → α → State} (h : InBounds s) (step : ∀ (t : State) (x : α), InBounds t → InBounds (f t x))
    (xs : List α) : InBounds (xs.foldl f s) := by
  induction xs generalizing s with
  | nil => exact h
  | cons x xs ih => exact ih (step s x h)

/-! ### Records and entries -/

theorem updRecord (h : InBounds s) (id : RecordId) {f : Record → Record} (link : ∀ q, (f q).link = q.link) :
    InBounds (s.updRecord id f) := by
  have links : (s.updRecord id f).records.map Record.link = s.records.map Record.link := ?_
  · exact h.of_le rfl le_rfl (by rw [links]) le_rfl
  show (s.records.map (fun r => if r.id = id then f r else r)).map Record.link = s.records.map Record.link
  rw [List.map_map]
  refine List.map_congr_left fun q _ => ?_
  rw [Function.comp_apply]
  split
  · exact link q
  · rfl

theorem setNeed (h : InBounds s) (w : Waiter) (n : NeedState) : InBounds (s.setNeed w n) :=
  h.updRecord _ fun _ => rfl

theorem updSet (h : InBounds s) (i : Fin 128) (f : CacheSet → CacheSet) : InBounds (s.updSet i f) := h.of_same (by rfl)

theorem dropClaim (h : InBounds s) (a : Nat) : InBounds (s.dropClaim a) := by
  unfold State.dropClaim
  exact h.updSet _ _

/-- Every entry is changed in its place. -/
theorem mapFills (h : InBounds s) (g : Fill → Fill) : InBounds { s with fills := s.fills.map g } :=
  h.of_le rfl le_rfl (.refl _) (List.length_map g).le

theorem withdraw (h : InBounds s) (id : RecordId) : InBounds (s.withdraw id) := h.mapFills _

theorem updFill (h : InBounds s) (a : Nat) (g : Fill → Fill) : InBounds (s.updFill a g) := h.mapFills _

theorem clearRange (h : InBounds s) (r : Range) : InBounds (s.clearRange r) :=
  (h.mapFills (Fill.doomIn r)).of_same (by simp [State.bounded, clearRange_fills])

theorem removeFill (h : InBounds s) (a : Nat) : InBounds (s.removeFill a) :=
  h.of_le rfl le_rfl (.refl _) (List.length_filter_le ..)

/-- Some records are gone. -/
theorem filterRecords (h : InBounds s) (p : Record → Bool) : InBounds { s with records := s.records.filter p } :=
  h.of_le rfl le_rfl (List.filter_sublist.map _) le_rfl

theorem place (h : InBounds s) (l : Link) (x : Byte) (m : Message) : InBounds (s.place l x m) :=
  h.of_same (by simp [State.bounded])

/-! ### Lookups -/

theorem hitRead (h : InBounds s) (r : Record) (i : Nat) (v : Fin 4) : InBounds (s.hitRead r i v) := by
  rw [hitRead_eq]
  exact InBounds.updRecord (h.of_same (by rfl)) _ (by intro _; rfl)

theorem hitPin (h : InBounds s) (r : Record) (i : Nat) (v : Fin 4) : InBounds (s.hitPin r i v) := by
  rw [hitPin_eq]
  exact InBounds.updRecord (h.of_same (by rfl)) _ (by intro _; rfl)

theorem failNeed (h : InBounds s) (w : Waiter) : InBounds (s.failNeed w) := by
  unfold State.failNeed
  split
  · exact h
  · split
    · exact h.updRecord _ fun _ => rfl
    · exact (h.updRecord _ (by intro _; rfl)).dropClaim _

theorem attach (h : InBounds s) (a : Nat) (w : Waiter) : InBounds (s.attach a w) :=
  ((h.updFill a _).setNeed w _).of_same (by rfl)

theorem gather (h : InBounds s) (a : Nat) : InBounds (s.gather a) := h.foldl (fun _ w ht => ht.attach a w) _

/-- An entry is created only while one is free (R44). -/
theorem createFill (h : InBounds s) (free : s.fillFree = true) (a : Nat) (v : Option (Fin 4)) (w : Waiter) :
    InBounds (s.createFill a v w) := by
  have room : s.fills.length < fillLimit := of_decide_eq_true free
  have entered : InBounds { s with fills := s.fills ++ [freshFill a v w] } :=
    ⟨h.jobs, h.queued, h.history, h.burst, h.records, by rw [List.length_append]; exact room⟩
  exact (entered.setNeed w _).gather a

theorem missCreate (h : InBounds s) (free : s.fillFree = true) (r : Record) (w : Waiter) : InBounds (s.missCreate r w) := by
  unfold State.missCreate
  dsimp only
  split
  · exact (h.updSet _ _).createFill free _ _ _
  · split
    · exact (h.createFill free _ _ _).of_same (by rfl)
    · exact h.setNeed _ _

theorem missNeed (h : InBounds s) (r : Record) (w : Waiter) : InBounds (s.missNeed r w) := by
  have counted : InBounds s.countMiss := h.of_same (by rfl)
  unfold State.missNeed
  dsimp only
  split_ifs with faulted entry free
  · exact counted.failNeed w
  · exact counted.attach _ w
  · exact counted.missCreate free r w
  · exact counted.setNeed w _

theorem lookup (h : InBounds s) (w : Waiter) : InBounds (s.lookup w) := by
  unfold State.lookup
  split
  · exact h
  · dsimp only
    split
    · split
      · exact h.hitRead _ _ _
      · exact h.hitPin _ _ _
    · exact h.missNeed _ w

theorem lookups (h : InBounds s) (id : RecordId) (is : List Nat) : InBounds (s.lookups id is) :=
  h.foldl (fun _ i ht => ht.lookup ⟨id, i⟩) is

/-! ### Completion, parking, release -/

theorem settle (h : InBounds s) (id : RecordId) : InBounds (s.settle id) := by
  unfold State.settle
  split
  · exact h
  · split
    · exact ((h.withdraw _).filterRecords _).place _ _ _
    · exact h

theorem park (h : InBounds s) (id : RecordId) : InBounds (s.park id) := by
  unfold State.park
  exact (h.updRecord id (by intro _; rfl)).withdraw id

theorem returnToLookup (h : InBounds s) (w : Waiter) : InBounds (s.returnToLookup w) := by
  unfold State.returnToLookup
  split
  · exact h
  · split
    · exact h.park _
    · exact (h.lookup w).settle _

theorem release (h : InBounds s) (id : RecordId) : InBounds (s.release id) := by
  unfold State.release
  split
  · exact h
  · exact ((h.updRecord id (f := fun q => { q with state := .active }) fun _ => rfl).lookups _ _).settle _

theorem reexamine (h : InBounds s) : InBounds s.reexamine := by
  refine h.foldl (fun t id ht => ?_) _
  unfold State.reexamineOne
  split
  · exact ht
  · split
    · exact ht.release _
    · exact ht

/-! ### The end of an entry -/

theorem handSlots (h : InBounds s) (ws : List Waiter) : InBounds (handSlots ws s) := by
  induction ws generalizing s with
  | nil => exact h
  | cons w ws ih =>
    unfold Machine.handSlots
    split
    · dsimp only
      split
      · exact h.returnToLookup w
      · exact ih (h.returnToLookup w)
    · exact ih h

theorem afterEnd (h : InBounds s) (a : Nat) : InBounds (s.afterEnd a) := by
  refine (h.handSlots _).foldl (fun t w ht => ?_) _
  unfold State.retryWay
  split
  · exact ht.returnToLookup w
  · exact ht

theorem releaseWay (h : InBounds s) (f : Fill) : InBounds (s.releaseWay f) := by
  unfold State.releaseWay
  split
  · exact h
  · exact h.updSet _ _

theorem deliver (h : InBounds s) (d : List Byte) (w : Waiter) : InBounds (s.deliver d w) := by
  unfold State.deliver
  split
  · exact h
  · split
    · exact (h.updRecord _ (by intro _; rfl)).settle _
    · exact ((h.dropClaim _).updRecord _ (by intro _; rfl)).settle _

theorem deliverBypass (h : InBounds s) (d : List Byte) (w : Waiter) : InBounds (s.deliverBypass d w) := by
  unfold State.deliverBypass
  split
  · exact h
  · split
    · exact h.deliver d w
    · exact h.returnToLookup w

theorem arrive (h : InBounds s) (f : Fill) (d : List Byte) : InBounds (s.arrive f d) := by
  unfold State.arrive
  split
  · exact (((h.releaseWay f).removeFill _).foldl (fun _ w ht => ht.returnToLookup w) _).afterEnd _
  · dsimp only
    split
    · exact (((h.updSet _ _).removeFill _).foldl (fun _ w ht => ht.deliver d w) _).afterEnd _
    · exact ((h.removeFill _).foldl (fun _ w ht => ht.deliverBypass d w) _).afterEnd _

theorem failWaiter (h : InBounds s) (w : Waiter) : InBounds (s.failWaiter w) := (h.failNeed w).settle _

theorem failFill (h : InBounds s) (a : Nat) : InBounds (s.failFill a) := by
  unfold State.failFill
  split
  · exact h
  · exact (((h.releaseWay _).removeFill a).foldl (fun _ w ht => ht.failWaiter w) _).afterEnd _

theorem failIfWaiting (h : InBounds s) (n : NeedState) (w : Waiter) : InBounds (s.failIfWaiting n w) := by
  unfold State.failIfWaiting
  split
  · exact h.failWaiter w
  · exact h

theorem failFills (h : InBounds s) : InBounds s.failFills :=
  ((h.foldl (fun _ w ht => ht.failIfWaiting _ w) _).foldl (fun _ w ht => ht.failIfWaiting _ w) _).foldl
    (fun _ a ht => ht.failFill a) _

/-! ### Links and FSQ's own state -/

theorem updLink (h : InBounds s) (l : Link) (f : LinkState → LinkState) : InBounds (s.updLink l f) :=
  h.of_same (by simp [State.bounded])

theorem giveNotice (h : InBounds s) (l : Link) (m : Message) : InBounds (s.giveNotice l m) :=
  h.of_same (by simp [State.bounded])

theorem giveFlashState (h : InBounds s) : InBounds s.giveFlashState := by
  unfold State.giveFlashState
  dsimp only
  split <;> split
  · exact (h.giveNotice _ _).giveNotice _ _
  · exact h.giveNotice _ _
  · exact h.giveNotice _ _
  · exact h

theorem giveStart (h : InBounds s) : InBounds s.giveStart := (h.giveNotice _ _).giveNotice _ _

/-- FSQ changes, its burst counter does not. -/
theorem updFsq (h : InBounds s) {f : Fsq → Fsq} (burst : (f s.fsq).burst = s.fsq.burst) : InBounds (s.updFsq f) :=
  h.of_le rfl burst.le (.refl _) le_rfl

theorem answerProfile (h : InBounds s) (p : PendingProfile) (st : Status) : InBounds (s.answerProfile p st) := by
  unfold State.answerProfile
  split
  · exact h
  · exact h.place _ _ _

theorem answerResets (h : InBounds s) (st : Status) : InBounds (s.answerResets st) := by
  refine InBounds.updFsq (h.foldl (fun t q ht => ?_) _) (by rfl)
  unfold answerReset
  split
  · exact ht
  · exact ht.place _ _ _

theorem applyProfile (h : InBounds s) : InBounds s.applyProfile := by
  unfold State.applyProfile
  split
  · exact h
  · exact (h.updFsq (by rfl)).answerProfile _ _

/-! ### The end of a job (R69, R75) -/

theorem freeStaging (h : InBounds s) (j : Job) : InBounds (s.freeStaging j) := by
  unfold State.freeStaging
  split
  · exact h
  · exact h.of_same (by rfl)

theorem notifyJob (h : InBounds s) (j : Job) (o : Status) : InBounds (s.notifyJob j o) := by
  unfold State.notifyJob
  split
  · exact h.place _ _ _
  · exact h

theorem eraseJob (h : InBounds s) (place : Nat) :
    InBounds { s with jq := { s.jq with jobs := s.jq.jobs.eraseIdx place } } :=
  ⟨(List.eraseIdx_sublist ..).length_le.trans h.jobs, fun j hj => h.queued j ((tail_eraseIdx_sublist ..).subset hj),
    h.history, h.burst, h.records, h.fills⟩

theorem addHistory (h : InBounds s) (e : HistoryEntry) :
    InBounds { s with jq := { s.jq with history := appendHistory s.jq.history e } } :=
  ⟨h.jobs, h.queued, appendHistory_length h.history e, h.burst, h.records, h.fills⟩

/-- The burst counter becomes 0 (R103). -/
theorem clearBurst (h : InBounds s) : InBounds (s.updFsq (fun q => { q with burst := 0 })) :=
  h.of_le rfl (Nat.zero_le _) (.refl _) le_rfl

theorem endJob (h : InBounds s) (place : Nat) (o : Status) : InBounds (s.endJob place o) := by
  unfold State.endJob
  split
  · exact h
  · next j _ =>
    have steps : ∀ u : State, InBounds u → InBounds
        ((State.updCounters
          { u.freeStaging { j with outcome := some o } with
            jq := { (u.freeStaging { j with outcome := some o }).jq with
              history := appendHistory (u.freeStaging { j with outcome := some o }).jq.history (j.entry o) } }
          (fun c => c.countJob o)).notifyJob { j with outcome := some o } o) := fun u hu =>
      InBounds.notifyJob (InBounds.of_same ((hu.freeStaging _).addHistory _) (by rfl)) _ _
    have left : InBounds (if place = 0 then
        State.updFsq { s with jq := { s.jq with jobs := s.jq.jobs.eraseIdx place } } (fun q => { q with burst := 0 })
        else { s with jq := { s.jq with jobs := s.jq.jobs.eraseIdx place } }) := by
      split
      · exact (h.eraseJob place).clearBurst
      · exact h.eraseJob place
    dsimp only
    split
    · exact steps _ left
    · exact (steps _ left).reexamine

theorem endAllJobs (js : List Job) (h : InBounds s) : InBounds (endAllJobs js s) := by
  induction js generalizing s with
  | nil => exact h
  | cons j js ih => exact ih (h.endJob 0 .flashFault)

/-! ### Arbitration (R100 to R103) -/

theorem setPhase (h : InBounds s) (p : Phase) : InBounds (s.setPhase p) :=
  h.updHead _

theorem startJob (h : InBounds s) (j : Job) : InBounds (s.startJob j) :=
  (h.setPhase .issue).of_le rfl (Nat.zero_le _) (.refl _) le_rfl

theorem beginFill (h : InBounds s) (f : Fill) : InBounds (s.beginFill f) := (h.updFill _ _).of_same (by rfl)

/-- An entry is served while the burst counter can still rise, or no QUEUED job is head (R101, R103). -/
theorem serveOldest (h : InBounds s) (room : s.headQueued = true → s.fsq.burst < burstLimit) : InBounds s.serveOldest := by
  unfold State.serveOldest
  split
  · next f _ =>
    have begun := h.beginFill f
    refine ⟨begun.jobs, begun.queued, begun.history, ?_, begun.records, begun.fills⟩
    show (if s.headQueued then s.fsq.burst + 1 else s.fsq.burst) ≤ burstLimit
    split
    · next queued => exact room queued
    · exact h.burst
  · exact h

theorem choose (h : InBounds s) : InBounds s.choose := by
  unfold State.choose
  split
  · next j head =>
    split
    · exact h.startJob j
    · next passed =>
      refine h.serveOldest fun queued => lt_of_le_of_ne h.burst fun full => passed ?_
      have phase : j.phase.isNone = true := by simpa [State.headQueued, head] using queued
      simp [phase, full]
  · next head => exact h.serveOldest fun queued => by simp [State.headQueued, head] at queued

theorem arbitrate (h : InBounds s) : InBounds s.arbitrate := h.applyProfile.choose

theorem enterReady (h : InBounds s) : InBounds s.enterReady := InBounds.arbitrate (h.updFsq (by rfl))

theorem suspendedDecision (h : InBounds s) : InBounds s.suspendedDecision := by
  unfold State.suspendedDecision
  split_ifs
  · exact h.of_same (by rfl)
  · exact h.of_same (by rfl)
  · split
    · exact (h.beginFill _).updFsq (by rfl)
    · exact h.of_same (by rfl)

theorem beginSuspension (h : InBounds s) : InBounds s.beginSuspension := (h.setPhase .suspending).of_same (by rfl)

theorem kick (h : InBounds s) : InBounds s.kick := by
  unfold State.kick
  split
  · exact h
  · split
    · exact h.arbitrate
    · split
      · exact h.beginSuspension
      · exact h
    · exact h.suspendedDecision
    · exact h

theorem kickIfCreated {u : State} (h : InBounds t) : InBounds (kickIfCreated u t) := by
  unfold Machine.kickIfCreated
  split
  · exact h.kick
  · exact h

/-! ### Running a job, recovery, start-up -/

theorem finishJob (h : InBounds s) (o : Status) : InBounds (s.finishJob o) := by
  have ended : InBounds ((s.endJob 0 o).setFlash .ready) := (h.endJob 0 o).updFsq (by rfl)
  unfold State.finishJob
  dsimp only
  split
  · refine ended.applyProfile.serveOldest ?_
    rw [applyProfile_burst, State.headQueued, State.head, applyProfile_jq]
    exact endJob_no_burst s o
  · exact ended.arbitrate

theorem enterRecovery (h : InBounds s) (origin : RecoveryOrigin) (probe : Bool) : InBounds (s.enterRecovery origin probe) :=
  h.of_same (by rfl)

theorem timeOutJob (h : InBounds s) : InBounds s.timeOutJob := (h.endJob 0 .flashTimeout).enterRecovery _ _

theorem abortRunning (h : InBounds s) : InBounds s.abortRunning := by
  unfold State.abortRunning
  split
  · exact h.endJob _ _
  · exact h

theorem resetTakesEffect (h : InBounds s) : InBounds s.resetTakesEffect := by
  unfold State.resetTakesEffect
  split
  · exact h.of_same (by rfl)
  · exact h.enterRecovery _ _
  · exact h.abortRunning.enterRecovery _ _

theorem recoveryReady (h : InBounds s) : InBounds s.recoveryReady := by
  have answered : InBounds ((s.setFlash .ready).answerResets .ok) := InBounds.answerResets (h.updFsq (by rfl)) .ok
  have told : ∀ u : State, InBounds u → InBounds (if u.fsq.origin = .faulted then u.giveFlashState else u) := fun u hu => by
    split
    · exact hu.giveFlashState
    · exact hu
  have goesOn : ∀ u : State, InBounds u → InBounds (if u.resetNext.isSome then u.applyProfile else u.arbitrate) :=
    fun u hu => by
      split
      · exact hu.applyProfile
      · exact hu.arbitrate
  exact goesOn _ (told _ answered)

theorem recoveryFaulted (h : InBounds s) (cause : FaultCause) : InBounds (s.recoveryFaulted cause) := by
  have ended : ∀ f : Fsq → Fsq, (f s.fsq).burst = s.fsq.burst →
      InBounds (Machine.endAllJobs (s.updFsq f).failFills.jq.jobs (s.updFsq f).failFills) := fun f burst =>
    InBounds.endAllJobs _ (h.updFsq burst).failFills
  unfold State.recoveryFaulted
  refine InBounds.giveFlashState (InBounds.answerResets ?_ _)
  split
  · exact ended _ rfl
  · exact InBounds.answerProfile ((ended _ rfl).updFsq (by rfl)) _ _

theorem enterBusy (h : InBounds s) : InBounds s.enterBusy := (h.setPhase .busy).of_same (by rfl)

theorem checkPassed (h : InBounds s) (j : Job) : InBounds (s.checkPassed j) := by
  unfold State.checkPassed
  split
  · exact (h.setPhase .verify).of_same (by rfl)
  · exact h.finishJob _

theorem busyEnded (h : InBounds s) (j : Job) : InBounds (s.busyEnded j) := by
  unfold State.busyEnded
  split
  · exact h.finishJob _
  · split
    · exact h.checkPassed j
    · exact h.of_same (by rfl)

theorem startupReady (h : InBounds s) : InBounds s.startupReady :=
  InBounds.arbitrate (InBounds.giveStart (h.updFsq (by rfl)))

theorem startupFaulted (h : InBounds s) (cause : FaultCause) : InBounds (s.startupFaulted cause) :=
  InBounds.giveStart (h.updFsq (by rfl))

/-- A reset empties every table. -/
theorem of_empty (jq : s.jq = .reset) (burst : s.fsq.burst = 0) (records : s.records = []) (fills : s.fills = []) :
    InBounds s := by
  refine ⟨?_, ?_, ?_, ?_, fun l => ?_, ?_⟩
  · rw [jq]; exact Nat.zero_le _
  · rw [jq]; exact fun j hj => by cases hj
  · rw [jq]; exact Nat.zero_le _
  · rw [burst]; exact Nat.zero_le _
  · rw [records]; exact Nat.zero_le _
  · rw [fills]; exact Nat.zero_le _

end InBounds

end Sys2Proof.Machine
end

section
/-! PROOFS. R59, R75, R103, R23 and R41: every request and every command keeps the order of the queue and the bounds, and
O57. -/

namespace Sys2Proof.Machine

/-- A check that is listed has passed where none fails. -/
theorem check_passed {cs : List (Bool × Status)} (h : firstFailure cs = none) {b : Bool} {st : Status} (m : (b, st) ∈ cs) :
    b = false := firstFailure_eq_none.mp h (b, st) m

namespace InBounds

variable {s : State}

/-! ### The requests' own parts -/

theorem refuse (h : InBounds s) (q : Request) (k : Kind) (st : Status) : InBounds (q.refuse k st s) := h.place _ _ _

theorem accept (h : InBounds s) (q : Request) (k : Kind) (p : List Byte) : InBounds (q.accept k p s) := h.place _ _ _

/-- A record joins the table only while its link has one free (R23). -/
theorem addRecord (h : InBounds s) {r : Record} (room : s.tableBusy r.link = false) : InBounds (s.addRecord r) := by
  refine ⟨h.jobs, h.queued, h.history, h.burst, fun l => ?_, h.fills⟩
  show ((s.records ++ [r]).map Record.link).count l ≤ recordLimit
  rw [List.map_append, List.count_append, List.map_singleton, List.count_singleton]
  split
  · next own =>
    obtain rfl := eq_of_beq own
    have free : ¬ recordLimit ≤ (s.recordsOf r.link).length := of_decide_eq_false room
    rw [count_links]
    exact Nat.lt_of_not_le free
  · exact h.records l

theorem readBody (h : InBounds s) (q : Request) : InBounds (readBody q s) := by
  unfold Machine.readBody
  split
  · exact h.refuse _ _ _
  · next passed =>
    have room : s.tableBusy q.link = false := check_passed passed (st := .busy) (by simp [readChecks])
    unfold State.acceptRead
    dsimp only
    split
    · exact h.addRecord room
    · exact (((h.addRecord (r := newRecord q .read _) room).lookups _ _).settle _).kickIfCreated

theorem pinBody (h : InBounds s) (q : Request) : InBounds (pinBody q s) := by
  unfold Machine.pinBody
  split
  · exact h.refuse _ _ _
  · next passed =>
    have room : s.tableBusy q.link = false := check_passed passed (st := .busy) (by simp [pinChecks])
    have claimed := (h.addRecord (r := newRecord q .pin (payloadRange q.payload 2)) room).foldl (f := State.addClaim)
      (fun t a ht => ht.updSet (setIndex a) _) (s.unpinnedLines (payloadRange q.payload 2))
    exact ((claimed.lookups _ _).settle _).kickIfCreated

theorem unpinBody (h : InBounds s) (q : Request) : InBounds (unpinBody q s) := by
  unfold Machine.unpinBody
  split
  · exact h.refuse _ _ _
  · exact InBounds.accept (h.of_same (by simp [State.bounded])) _ _ _

theorem invalidateBody (h : InBounds s) (q : Request) : InBounds (invalidateBody q s) := by
  unfold Machine.invalidateBody
  split
  · exact h.refuse _ _ _
  · exact (h.clearRange _).accept _ _ _

theorem probeBody (h : InBounds s) (q : Request) : InBounds (probeBody q s) := by
  unfold Machine.probeBody
  dsimp only
  split
  · split
    · exact h.accept _ _ _
    · exact h.refuse _ _ _
  · exact h.refuse _ _ _

/-- A job joins the queue only while there is room, and behind the others (R59, R66). -/
theorem appendJob (h : InBounds s) (room : s.jq.jobs.length < jobLimit) (q : Request) (d : JobSpec) :
    InBounds (s.appendJob q d) := by
  have joined : ∀ u : State, InBounds u → u.jq = s.jq → ∀ (j : Job) (n : BitVec 16) (b : Vector (Option (List Byte)) 4),
      j.phase = none →
      InBounds { u with jq := { u.jq with jobs := u.jq.jobs ++ [j], nextId := n }, staging := b } := by
    intro u hu jq j n b phase
    refine ⟨?_, fun k hk => ?_, hu.history, hu.burst, hu.records, hu.fills⟩
    · show (u.jq.jobs ++ [j]).length ≤ jobLimit
      rw [List.length_append, jq]
      exact room
    · have member : k ∈ u.jq.jobs.tail ∨ k ∈ [j] := by
        cases jobs : u.jq.jobs with
        | nil => simp [jobs] at hk
        | cons x xs => simpa [jobs] using hk
      obtain old | new := member
      · exact hu.queued k old
      · rw [List.mem_singleton.mp new]
        exact phase
  unfold State.appendJob
  dsimp only
  split
  · exact joined _ h.clearBurst rfl _ _ _ rfl
  · exact joined _ h rfl _ _ _ rfl

theorem holdRange (h : InBounds s) (r : Option Range) : InBounds (s.holdRange r) := by
  unfold State.holdRange
  split
  · exact h
  · exact h.clearRange _

theorem jobRequest (h : InBounds s) (q : Request) (k : Kind) (own : List (Bool × Status)) (d : JobSpec) :
    InBounds (jobRequest q k own d s) := by
  unfold Machine.jobRequest
  split
  · exact h.refuse _ _ _
  · next passed =>
    have room : s.jq.jobs.length < jobLimit := by
      have free := check_passed passed (b := jobLimit ≤ s.jq.jobs.length) (st := .queueFull) (by simp [commonChecks])
      exact Nat.lt_of_not_le (of_decide_eq_false free)
    have accepted : InBounds (q.accept k (leBytes 2 s.jq.nextId.toNat)
        (((s.appendJob q d).reserve q.link).holdRange d.range)) :=
      (InBounds.holdRange ((h.appendJob room q d).updLink q.link _) d.range).accept q k _
    unfold State.acceptJob
    dsimp only
    split
    · exact accepted.kick
    · exact accepted

theorem cancelBody (h : InBounds s) (q : Request) : InBounds (cancelBody q s) := by
  unfold Machine.cancelBody
  split
  · exact h.refuse _ _ _
  · next i _ =>
    split
    · exact h.refuse _ _ _
    · split
      · exact h.refuse _ _ _
      · have ended := (h.endJob i .cancelled).accept q .cancelJob q.payload
        unfold State.afterCancel
        dsimp only
        split
        · exact ended.kick
        · exact ended

theorem queryBody (h : InBounds s) (q : Request) : InBounds (queryBody q s) := by
  unfold Machine.queryBody
  split
  · split
    · exact h.accept _ _ _
    · exact h.refuse _ _ _
  · split
    · exact h.accept _ _ _
    · exact h.refuse _ _ _

theorem setProfileBody (h : InBounds s) (q : Request) : InBounds (setProfileBody q s) := by
  unfold Machine.setProfileBody
  split
  · exact h.refuse _ _ _
  · next x _ =>
    split_ifs
    · exact h.refuse _ _ _
    · exact h.refuse _ _ _
    · have pending : InBounds (s.updFsq (fun f => { f with pendingProfile := some (pendingOf q x) })) := h.updFsq (by rfl)
      unfold State.pendProfile
      dsimp only
      split
      · exact pending
      · exact pending.kick

theorem resetFlashBody (h : InBounds s) (q : Request) : InBounds (resetFlashBody q s) := by
  have listed : InBounds (s.listReset q) := h.updFsq (by rfl)
  unfold Machine.resetFlashBody
  dsimp only
  split
  · exact listed.updFsq (by rfl)
  · exact listed.resetTakesEffect

theorem protectBody (h : InBounds s) (q : Request) : InBounds (protectBody q s) := by
  unfold Machine.protectBody
  split
  · exact h.refuse _ _ _
  · split
    · exact h.refuse _ _ _
    · exact InBounds.accept (h.of_same (by rfl)) _ _ _

theorem unprotectBody (h : InBounds s) (q : Request) : InBounds (unprotectBody q s) := by
  unfold Machine.unprotectBody
  dsimp only
  split
  · split
    · exact h.refuse _ _ _
    · split
      · exact h.refuse _ _ _
      · exact InBounds.accept (h.of_same (by rfl)) _ _ _
  · exact h.refuse _ _ _

theorem openBody (h : InBounds s) (q : Request) : InBounds (openBody q s) := by
  unfold Machine.openBody
  split
  · exact h.refuse _ _ _
  · exact (h.updLink _ _).accept _ _ _

theorem removeRecord (h : InBounds s) (r : Record) : InBounds (removeRecord s r) := by
  unfold Machine.removeRecord
  dsimp only
  split
  · exact (h.withdraw _).filterRecords _
  · exact ((h.withdraw _).foldl (fun _ i ht => ht.dropClaim (r.lineOf i)) _).filterRecords _

/-- Only the notice flags of the jobs change (R76). -/
theorem suppress (h : InBounds s) (l : Link) (session : Byte) : InBounds (s.suppress l session) := by
  refine ⟨?_, fun j hj => ?_, h.history, h.burst, h.records, h.fills⟩
  · rw [State.suppress, List.length_map]
    exact h.jobs
  · rw [State.suppress, ← List.map_tail] at hj
    obtain ⟨k, hk, rfl⟩ := List.mem_map.mp hj
    split
    · exact h.queued k hk
    · exact h.queued k hk

theorem closeBody (h : InBounds s) (q : Request) : InBounds (closeBody q s) := by
  unfold Machine.closeBody
  refine InBounds.updFsq (InBounds.suppress ?_ _ _) rfl
  exact InBounds.foldl (h.updLink _ _) (fun _ r ht => ht.removeRecord r) _

theorem nopBody (h : InBounds s) (q : Request) : InBounds (nopBody q s) := by
  unfold Machine.nopBody
  split
  · exact h.refuse _ _ _
  · exact h.accept _ _ _

theorem getStatsBody (h : InBounds s) (q : Request) : InBounds (getStatsBody q s) := by
  unfold Machine.getStatsBody
  split
  · exact h.refuse _ _ _
  · have answered := h.accept q .getStats (counterRecord s)
    dsimp only
    split
    · exact answered.of_same (by rfl)
    · exact answered

/-- The request's own part of every kind. -/
theorem bodyOf (h : InBounds s) (k : Kind) (q : Request) : InBounds (bodyOf k q s) := by
  cases k with
  | openSession => exact h.openBody q
  | closeSession => exact h.closeBody q
  | nop => exact h.nopBody q
  | getStatus => exact h.accept _ _ _
  | getStats => exact h.getStatsBody q
  | read => exact h.readBody q
  | pin => exact h.pinBody q
  | unpin => exact h.unpinBody q
  | invalidate => exact h.invalidateBody q
  | probeLine => exact h.probeBody q
  | program => exact h.jobRequest _ _ _ _
  | erase => exact h.jobRequest _ _ _ _
  | raw => exact h.jobRequest _ _ _ _
  | cancelJob => exact h.cancelBody q
  | queryJob => exact h.queryBody q
  | setProfile => exact h.setProfileBody q
  | getProfile => exact h.accept _ _ _
  | resetFlash => exact h.resetFlashBody q
  | resetPart => exact .of_empty rfl rfl rfl rfl
  | protect => exact h.protectBody q
  | unprotect => exact h.unprotectBody q
  | listProtect => exact h.accept _ _ _

/-! ### Time -/

/-- Time changes of what is bounded only the head job's busy time. -/
theorem advance (h : InBounds s) (n : Nat) : InBounds (s.advance n) :=
  (h.updHead (fun j => { j with busyTime := j.busyTime + s.busyGrowth n })).of_same (by rfl)

end InBounds

/-! ### Frames -/

/-- Where a command answers a next state, the queue is in order and the bounds hold in it. -/
def EndsInBounds (o : Host.Outcome State Fault Refusal) : Prop := ∀ t, o = .next t → InBounds t

theorem endsInBounds_next {t : State} (h : InBounds t) : EndsInBounds (.next t) := fun _ e => by cases e; exact h

theorem endsInBounds_fault (f : Fault) : EndsInBounds (.fault f) := fun _ e => by cases e

namespace InBounds

variable {s : State}

theorem atExpiry (h : InBounds s) (left : Nat) {act : State → State} (acts : ∀ u, InBounds u → InBounds (act u)) :
    EndsInBounds (atExpiry s left act) := fun t e => by
  obtain ⟨-, rfl⟩ := atExpiry_next e
  exact acts _ (h.advance left)

theorem take (h : InBounds s) (l : Link) : InBounds (s.take l) := h.updLink l _

theorem openA (h : InBounds s) : InBounds s.openA := by
  obtain ⟨p, hp⟩ := openA_frame s
  rw [hp]
  exact h.of_same (by rfl)

theorem receiveA (h : InBounds s) (fits : List Byte → Bool) {act : State → State}
    (acts : ∀ u, InBounds u → InBounds (act u)) : EndsInBounds ((s.receiveA fits).outcome act) := by
  have begun := h.openA
  unfold State.receiveA
  dsimp only
  split
  · split
    · exact endsInBounds_next (acts _ (begun.of_same (by rfl)))
    · exact endsInBounds_next (begun.of_same (by rfl))
  · split
    · split
      · exact endsInBounds_next (acts _ (begun.of_same (by rfl)))
      · exact endsInBounds_fault _
    · exact endsInBounds_next (begun.of_same (by rfl))
  · exact endsInBounds_fault _
  · exact endsInBounds_next (begun.of_same (by rfl))

theorem receiveB (h : InBounds s) (fits : List Byte → Bool) {act : State → State}
    (acts : ∀ u, InBounds u → InBounds (act u)) : EndsInBounds ((s.receiveB fits).outcome act) := by
  unfold State.receiveB
  split
  · exact endsInBounds_next h
  · split
    · split
      · exact endsInBounds_next (acts _ (h.take .b))
      · exact endsInBounds_next (h.updLink _ _)
    · exact endsInBounds_next (h.updLink _ _)
    · split
      · exact endsInBounds_next (acts _ (h.take .b))
      · exact endsInBounds_fault _

theorem receive (h : InBounds s) (l : Link) (frame : List Byte) {act : State → State}
    (acts : ∀ u, InBounds u → InBounds (act u)) : EndsInBounds ((s.receive l frame).outcome act) := by
  cases l with
  | a => exact h.receiveA _ acts
  | b => exact h.receiveB (fun buf => beginsFrame buf frame) acts

theorem reject (h : InBounds s) (l : Link) (x : Byte) (r : RejectReason) : InBounds (s.reject l x r) :=
  (h.updLink l _).place _ _ _

theorem rejectLength (h : InBounds s) (l : Link) (x : Byte) : InBounds ((s.reject l x .length).discardRest l) := by
  cases l with
  | a => exact h.reject _ _ _
  | b =>
    unfold State.discardRest
    exact (h.reject .b x .length).updLink .b _

theorem shiftInA (h : InBounds s) (bytes : List Byte → Option (List Byte)) : EndsInBounds (s.shiftInA bytes) := fun t e => by
  rw [(shiftInA_next e).1]
  exact h.of_same (by rfl)

theorem arrival (h : InBounds s) (v : Arrival) (frame : List Byte) {ends : Link → Host.Outcome State Fault Refusal}
    (whole : ∀ l, EndsInBounds (ends l)) : EndsInBounds (s.arrival v frame ends) := by
  cases v with
  | a => exact whole .a
  | aUpTo n => exact h.shiftInA _
  | b => exact whole .b

theorem serve (h : InBounds s) (q : Request) (k : Kind) : InBounds (q.serve k (Machine.bodyOf k) s) := by
  unfold Request.serve
  split
  · exact h.refuse _ _ _
  · split
    · exact h.refuse _ _ _
    · exact h.bodyOf k q

/-- A request of any kind. -/
theorem requestArrives (h : InBounds s) (k : Kind) (v : Arrival) (tag : Byte) (p : List Byte) :
    EndsInBounds (requestArrives k (Machine.bodyOf k) v tag p s) := by
  refine h.arrival v _ fun l => ?_
  unfold frameTaken
  dsimp only
  split
  · exact h.receive l _ fun u hu => hu.rejectLength l _
  · exact h.receive l _ fun u hu => hu.serve _ k

theorem execUnknownKind (h : InBounds s) (v : Arrival) (kind tag : Byte) (p : List Byte) :
    EndsInBounds (execUnknownKind v kind tag p s) := by
  unfold Machine.execUnknownKind
  split
  · exact endsInBounds_fault _
  · refine h.arrival v _ fun l => ?_
    unfold unknownTaken
    dsimp only
    split
    · exact h.receive l _ fun u hu => hu.rejectLength l _
    · exact h.receive l _ fun u hu => hu.place _ _ _

theorem truncateB (h : InBounds s) : EndsInBounds s.truncateB := h.atExpiry _ fun _ hu => (hu.take .b).reject _ _ _

theorem rejectedB (h : InBounds s) (r : RejectReason) : EndsInBounds (s.rejectedB r) := by
  cases r with
  | truncated =>
    show EndsInBounds s.truncatedB
    unfold State.truncatedB
    split
    · exact endsInBounds_next h
    · split
      · split
        · exact InBounds.truncateB (h.updLink .b _)
        · exact endsInBounds_next (h.updLink _ _)
      · exact h.truncateB
      · exact endsInBounds_next (h.updLink _ _)
  | length => exact h.receiveB _ fun u hu => hu.rejectLength .b _
  | crc => exact h.receiveB _ fun u hu => hu.reject .b _ _

theorem execFrameReject (h : InBounds s) (v : RejectArrival) (r : RejectReason) : EndsInBounds (execFrameReject v r s) := by
  cases v with
  | a => exact h.receiveA _ fun u hu => hu.reject .a _ _
  | aBytes bytes => exact h.shiftInA _
  | b => exact h.rejectedB r

theorem execLinkAOverrun (h : InBounds s) : EndsInBounds (execLinkAOverrun s) := by
  unfold Machine.execLinkAOverrun
  dsimp only
  split
  · split
    · exact endsInBounds_fault _
    · exact h.receiveA _ fun _ hu => hu
  · split
    · exact endsInBounds_fault _
    · exact h.receiveA _ fun _ hu => hu
  · exact endsInBounds_fault _
  · exact endsInBounds_next (h.openA.of_same (by rfl))

theorem execLinkBOverrun (h : InBounds s) : EndsInBounds (execLinkBOverrun s) := by
  unfold Machine.execLinkBOverrun
  split_ifs
  · exact endsInBounds_next h
  · exact endsInBounds_next (h.updLink _ _)
  · exact endsInBounds_fault _

theorem fall (h : InBounds s) : EndsInBounds s.fall := by
  unfold State.fall
  split
  · exact endsInBounds_next (h.of_same (by rfl))
  · exact endsInBounds_fault _

theorem firstByte_ignored (h : InBounds s) : EndsInBounds (s.firstByte (fun t b => t.selectA b .ignored)) := by
  unfold State.firstByte
  dsimp only
  split
  · exact endsInBounds_next (h.openA.of_same (by rfl))
  · exact endsInBounds_next h.openA
  · exact endsInBounds_fault _

theorem execLinkAIgnored (h : InBounds s) (part : IgnoredPart) : EndsInBounds (execLinkAIgnored part s) := by
  have first := h.firstByte_ignored
  unfold Machine.execLinkAIgnored
  cases part with
  | fall => exact h.fall
  | select b =>
    dsimp only
    split
    · exact endsInBounds_fault _
    · exact first
  | rise =>
    dsimp only
    split
    · exact endsInBounds_next (h.of_same (by rfl))
    · exact endsInBounds_next (h.of_same (by rfl))
    · exact endsInBounds_fault _
  | whole b =>
    dsimp only
    split
    · exact endsInBounds_fault _
    · split
      · next t e => exact endsInBounds_next (InBounds.of_same (first t e) (by rfl))
      · exact first

theorem execFetch (h : InBounds s) (part : FetchPart) : EndsInBounds (execFetch part s) := fun t e => by
  rw [(execFetch_next e).1]
  exact h.of_same (by rfl)

theorem execTransmitBegin (h : InBounds s) (cts : Bool) : EndsInBounds (execTransmitBegin s cts) := by
  unfold Machine.execTransmitBegin
  dsimp only
  split
  · exact endsInBounds_next (h.of_same (by rfl))
  · exact endsInBounds_next (h.of_same (by rfl))

theorem execTransmitEnd (h : InBounds s) : EndsInBounds (execTransmitEnd s) := by
  unfold Machine.execTransmitEnd
  split
  · exact endsInBounds_fault _
  · exact endsInBounds_next (h.of_same (by rfl))
  · exact endsInBounds_next (h.of_same (by rfl))

theorem execInterByteExpiry (h : InBounds s) : EndsInBounds (execInterByteExpiry s) := by
  unfold Machine.execInterByteExpiry
  split
  · exact endsInBounds_fault _
  · exact h.truncateB
  · exact h.atExpiry _ fun u hu => hu.updLink _ _

theorem takeWholeB (h : InBounds s) (bytes : List Byte) : InBounds (s.takeWholeB bytes) := by
  have taken := h.take .b
  unfold State.takeWholeB
  dsimp only
  split
  · split
    · exact taken.serve _ _
    · exact taken.place _ _ _
  · exact taken.reject _ _ _

theorem storeByteB (h : InBounds s) (b : Byte) : InBounds (s.storeByteB b) := by
  unfold State.storeByteB
  dsimp only
  split_ifs
  · exact (h.take .b).rejectLength .b _
  · exact h.takeWholeB _
  · exact h.updLink _ _

theorem execByteReceived (h : InBounds s) (b : Byte) : EndsInBounds (execByteReceived b s) := by
  unfold Machine.execByteReceived
  split
  · exact endsInBounds_next h
  · split
    · split_ifs
      · exact endsInBounds_next (h.updLink _ _)
      · exact endsInBounds_next (h.updLink _ _)
      · exact endsInBounds_next h
    · exact endsInBounds_next (h.storeByteB b)
    · exact endsInBounds_next (h.updLink _ _)

/-! ### The flash port -/

theorem endPort (h : InBounds s) : InBounds s.endPort := h.updFsq (by rfl)

theorem execFillArrival (h : InBounds s) (data : List Byte) : EndsInBounds (execFillArrival data s) := by
  unfold Machine.execFillArrival
  split
  · exact endsInBounds_fault _
  · split
    · exact endsInBounds_fault _
    · split
      · exact endsInBounds_fault _
      · next f _ =>
        have arrived := h.endPort.arrive f data
        refine endsInBounds_next ?_
        unfold State.afterFill
        split_ifs
        · exact arrived.resetTakesEffect
        · exact arrived.suspendedDecision
        · exact arrived.enterReady

theorem jobTransactionEnd (h : InBounds s) (use : TransactionUse) {act : Job → State → State}
    (acts : ∀ j u, InBounds u → InBounds (act j u)) : EndsInBounds (jobTransactionEnd s use act) := by
  unfold Machine.jobTransactionEnd
  split
  · split
    · exact endsInBounds_fault _
    · dsimp only
      refine endsInBounds_next ?_
      split
      · exact h.endPort.resetTakesEffect
      · exact acts _ _ h.endPort
  · exact endsInBounds_fault _

theorem descriptorEnded (h : InBounds s) (data : List Byte) (j : Job) : InBounds (s.descriptorEnded data j) := by
  have kept := h.updHead (fun k => { k with dataIn := data })
  unfold State.descriptorEnded
  dsimp only
  split
  · exact kept.enterBusy
  · exact kept.finishJob _

theorem execDescriptorEnd (h : InBounds s) (data : List Byte) : EndsInBounds (execDescriptorEnd data s) := by
  unfold Machine.execDescriptorEnd
  split
  · exact endsInBounds_fault _
  · exact h.jobTransactionEnd _ fun j u hu => hu.descriptorEnded data j

theorem statusRead (h : InBounds s) (b : Byte) (j : Job) : InBounds (s.statusRead b j) := by
  unfold State.statusRead
  split_ifs
  · exact h.busyEnded j
  · exact h.timeOutJob
  · exact h.beginSuspension
  · exact h.of_same (by rfl)

theorem execPollExpiry (h : InBounds s) : EndsInBounds (execPollExpiry s) := by
  unfold Machine.execPollExpiry
  split
  · exact h.atExpiry _ fun u hu => hu.of_same (by rfl)
  · exact endsInBounds_fault _

theorem execOperationTimeout (h : InBounds s) : EndsInBounds (execOperationTimeout s) := by
  unfold Machine.execOperationTimeout
  split
  · split
    · exact endsInBounds_fault _
    · dsimp only
      split
      · exact h.atExpiry _ fun u hu => hu.timeOutJob
      · exact h.atExpiry _ fun u hu => hu
  · exact endsInBounds_fault _

theorem errorStatusRead (h : InBounds s) (b : Byte) (j : Job) : InBounds (s.errorStatusRead b j) := by
  unfold State.errorStatusRead
  split_ifs
  · exact h.finishJob _
  · exact h.of_same (by rfl)
  · exact h.checkPassed j

theorem execVerifyEnd (h : InBounds s) (data : List Byte) : EndsInBounds (execVerifyEnd data s) := by
  unfold Machine.execVerifyEnd
  split
  · exact endsInBounds_fault _
  · exact h.jobTransactionEnd _ fun j u hu => hu.finishJob _

/-! ### Suspension -/

theorem execHoldExpiry (h : InBounds s) : EndsInBounds (execHoldExpiry s) := by
  unfold Machine.execHoldExpiry
  dsimp only
  split
  · exact endsInBounds_fault _
  · split_ifs
    · exact endsInBounds_fault _
    · refine h.atExpiry _ fun u hu => ?_
      split
      · exact hu.beginSuspension
      · exact hu
    · exact h.atExpiry _ fun u hu => hu
    · exact endsInBounds_fault _

theorem suspendedStatus (h : InBounds s) (b : Byte) (j : Job) : InBounds (s.suspendedStatus b j) := by
  unfold State.suspendedStatus
  dsimp only
  split_ifs
  · exact InBounds.suspendedDecision (InBounds.updFsq (InBounds.updFsq (h.setPhase .suspended) (by rfl)) (by rfl))
  · exact InBounds.busyEnded (InBounds.updFsq (h.setPhase .busy) (by rfl)) j
  · exact h.timeOutJob
  · exact h.of_same (by rfl)

theorem execSuspendPollExpiry (h : InBounds s) : EndsInBounds (execSuspendPollExpiry s) := by
  unfold Machine.execSuspendPollExpiry
  split
  · exact h.atExpiry _ fun u hu => hu.of_same (by rfl)
  · exact endsInBounds_fault _

theorem execSuspendTimeout (h : InBounds s) : EndsInBounds (execSuspendTimeout s) := by
  unfold Machine.execSuspendTimeout
  dsimp only
  split_ifs
  · exact h.atExpiry _ fun u hu => hu.timeOutJob
  · exact h.atExpiry _ fun u hu => hu
  · exact endsInBounds_fault _

theorem resumed (h : InBounds s) : InBounds s.resumed :=
  (h.updHead (fun j => { j with suspendCount := j.suspendCount + 1, phase := some .busy })).of_same (by rfl)

theorem execResumeEnd (h : InBounds s) : EndsInBounds (execResumeEnd s) := by
  have again := h.endPort.resumed
  unfold Machine.execResumeEnd
  split
  · split
    · exact endsInBounds_fault _
    · dsimp only
      refine endsInBounds_next ?_
      split
      · exact again.resetTakesEffect
      · exact again.of_same (by rfl)
  · exact endsInBounds_fault _

/-! ### Recovery -/

theorem recoveryStep (h : InBounds s) {act : State → State} (acts : ∀ u, InBounds u → InBounds (act u)) :
    InBounds (s.recoveryStep act) := by
  unfold State.recoveryStep
  dsimp only
  split_ifs
  · exact h.endPort.recoveryFaulted _
  · exact h.endPort.of_same (by rfl)
  · exact acts _ h.endPort

theorem execRecoveryResetEnd (h : InBounds s) : EndsInBounds (execRecoveryResetEnd s) := by
  unfold Machine.execRecoveryResetEnd
  split_ifs
  · exact endsInBounds_next (h.recoveryStep fun u hu => hu.of_same (by rfl))
  · exact endsInBounds_next (h.recoveryStep fun u hu => hu.of_same (by rfl))
  · exact endsInBounds_fault _

theorem execRecoveryWaitEnd (h : InBounds s) : EndsInBounds (execRecoveryWaitEnd s) := by
  unfold Machine.execRecoveryWaitEnd
  split
  · exact h.atExpiry _ fun u hu => hu.of_same (by rfl)
  · exact endsInBounds_fault _

theorem recoveryStatus (h : InBounds s) (b : Byte) : InBounds (s.recoveryStatus b) := by
  unfold State.recoveryStatus
  split_ifs
  · exact h.of_same (by rfl)
  · exact h.recoveryReady
  · exact h.of_same (by rfl)
  · exact h.recoveryFaulted _

theorem execRecoveryStatusEnd (h : InBounds s) (b : Byte) : EndsInBounds (execRecoveryStatusEnd b s) := by
  unfold Machine.execRecoveryStatusEnd
  split
  · exact endsInBounds_next (h.recoveryStep fun u hu => hu.recoveryStatus b)
  · exact endsInBounds_fault _

theorem recoveryId (h : InBounds s) (i : FlashId) : InBounds (s.recoveryId i) := by
  unfold State.recoveryId
  dsimp only
  split
  · exact InBounds.recoveryFaulted (h.updFsq (by rfl)) _
  · exact InBounds.recoveryReady (h.updFsq (by rfl))

theorem execRecoveryIdEnd (h : InBounds s) (i : FlashId) : EndsInBounds (execRecoveryIdEnd i s) := by
  unfold Machine.execRecoveryIdEnd
  split
  · exact endsInBounds_next (h.recoveryStep fun u hu => hu.recoveryId i)
  · exact endsInBounds_fault _

theorem execRecoveryTimeout (h : InBounds s) : EndsInBounds (execRecoveryTimeout s) := by
  unfold Machine.execRecoveryTimeout
  dsimp only
  split_ifs
  · exact h.atExpiry _ fun u hu => hu.recoveryFaulted _
  · exact h.atExpiry _ fun u hu => hu
  · exact endsInBounds_fault _

/-! ### Resets and start-up -/

theorem execPinResetRelease (h : InBounds s) (cap : Fin 8) (baud : Fin 4) :
    EndsInBounds (execPinResetRelease cap baud s) := by
  unfold Machine.execPinResetRelease
  split
  · exact endsInBounds_next (h.of_le rfl (Nat.zero_le _) (.refl _) le_rfl)
  · exact endsInBounds_fault _

theorem execStartupSettleEnd (h : InBounds s) : EndsInBounds (execStartupSettleEnd s) := by
  unfold Machine.execStartupSettleEnd
  split
  · exact h.atExpiry _ fun u hu => hu.of_same (by rfl)
  · exact endsInBounds_fault _

theorem execStartupResetEnd (h : InBounds s) : EndsInBounds (execStartupResetEnd s) := by
  unfold Machine.execStartupResetEnd
  split_ifs
  · exact endsInBounds_next (h.of_same (by rfl))
  · exact endsInBounds_next (h.of_same (by rfl))
  · exact endsInBounds_fault _

theorem execStartupWaitEnd (h : InBounds s) : EndsInBounds (execStartupWaitEnd s) := by
  unfold Machine.execStartupWaitEnd
  split
  · exact h.atExpiry _ fun u hu => hu.of_same (by rfl)
  · exact endsInBounds_fault _

theorem execStartupIdEnd (h : InBounds s) (i : FlashId) : EndsInBounds (execStartupIdEnd i s) := by
  have read : InBounds (s.endPort.updFsq (fun q => { q with flashId := i })) := h.endPort.updFsq (by rfl)
  unfold Machine.execStartupIdEnd
  split
  · dsimp only
    refine endsInBounds_next ?_
    split
    · exact read.startupFaulted _
    · exact read.of_same (by rfl)
  · exact endsInBounds_fault _

theorem execStartupStatusEnd (h : InBounds s) (b : Byte) : EndsInBounds (execStartupStatusEnd b s) := by
  unfold Machine.execStartupStatusEnd
  split
  · dsimp only
    refine endsInBounds_next ?_
    split_ifs
    · exact h.endPort.startupReady
    · exact h.endPort.startupFaulted _
    · exact h.endPort.of_same (by rfl)
  · exact endsInBounds_fault _

theorem execStartupPollExpiry (h : InBounds s) : EndsInBounds (execStartupPollExpiry s) := by
  unfold Machine.execStartupPollExpiry
  split
  · exact h.atExpiry _ fun u hu => hu.of_same (by rfl)
  · exact endsInBounds_fault _

theorem execStartupBusyLimit (h : InBounds s) : EndsInBounds (execStartupBusyLimit s) := by
  unfold Machine.execStartupBusyLimit
  dsimp only
  split_ifs
  · exact h.atExpiry _ fun u hu => hu.startupFaulted _
  · exact h.atExpiry _ fun u hu => hu
  · exact endsInBounds_fault _

/-! ### Every command and every step -/

theorem exec (h : InBounds s) (c : Instr) : EndsInBounds (exec c s) := by
  cases c with
  | powerOn cap baud => exact endsInBounds_next (.of_empty rfl rfl rfl rfl)
  | pinResetAssert => exact endsInBounds_next (.of_empty rfl rfl rfl rfl)
  | pinResetRelease cap baud => exact h.execPinResetRelease cap baud
  | startupSettleEnd => exact h.execStartupSettleEnd
  | startupResetCommandEnd => exact h.execStartupResetEnd
  | startupRecoveryWaitEnd => exact h.execStartupWaitEnd
  | startupIdReadEnd i => exact h.execStartupIdEnd i
  | startupStatusReadEnd b => exact h.execStartupStatusEnd b
  | startupPollIntervalExpiry => exact h.execStartupPollExpiry
  | startupBusyLimitExpiry => exact h.execStartupBusyLimit
  | openSession v tag p => exact h.requestArrives .openSession v tag p
  | closeSession v tag p => exact h.requestArrives .closeSession v tag p
  | nop v tag p => exact h.requestArrives .nop v tag p
  | getStatus v tag p => exact h.requestArrives .getStatus v tag p
  | getStats v tag p => exact h.requestArrives .getStats v tag p
  | read v tag p => exact h.requestArrives .read v tag p
  | pin v tag p => exact h.requestArrives .pin v tag p
  | unpin v tag p => exact h.requestArrives .unpin v tag p
  | invalidate v tag p => exact h.requestArrives .invalidate v tag p
  | probeLine v tag p => exact h.requestArrives .probeLine v tag p
  | program v tag p => exact h.requestArrives .program v tag p
  | erase v tag p => exact h.requestArrives .erase v tag p
  | raw v tag p => exact h.requestArrives .raw v tag p
  | cancelJob v tag p => exact h.requestArrives .cancelJob v tag p
  | queryJob v tag p => exact h.requestArrives .queryJob v tag p
  | setProfile v tag p => exact h.requestArrives .setProfile v tag p
  | getProfile v tag p => exact h.requestArrives .getProfile v tag p
  | resetFlash v tag p => exact h.requestArrives .resetFlash v tag p
  | resetPart v tag p => exact h.requestArrives .resetPart v tag p
  | protect v tag p => exact h.requestArrives .protect v tag p
  | unprotect v tag p => exact h.requestArrives .unprotect v tag p
  | listProtect v tag p => exact h.requestArrives .listProtect v tag p
  | unknownKind v kind tag p => exact h.execUnknownKind v kind tag p
  | frameReject v r => exact h.execFrameReject v r
  | linkAOverrun => exact h.execLinkAOverrun
  | linkAIgnoredTransaction part => exact h.execLinkAIgnored part
  | fetch part => exact h.execFetch part
  | linkBOverrun => exact h.execLinkBOverrun
  | interByteTimerExpiry => exact h.execInterByteExpiry
  | linkBTransmitBegin cts => exact h.execTransmitBegin cts
  | linkBTransmitEnd => exact h.execTransmitEnd
  | fillArrival data => exact h.execFillArrival data
  | writeEnableEnd =>
    exact h.jobTransactionEnd .writeEnable (act := fun j t => t.begin (t.mainTransaction j)) fun j u hu => hu.of_same (by rfl)
  | programTransactionEnd => exact h.jobTransactionEnd _ fun j u hu => hu.enterBusy
  | eraseTransactionEnd => exact h.jobTransactionEnd _ fun j u hu => hu.enterBusy
  | descriptorTransactionEnd data => exact h.execDescriptorEnd data
  | statusReadEnd b => exact h.jobTransactionEnd _ fun j u hu => hu.statusRead b j
  | pollIntervalExpiry => exact h.execPollExpiry
  | operationTimeout => exact h.execOperationTimeout
  | errorStatusReadEnd b => exact h.jobTransactionEnd _ fun j u hu => hu.errorStatusRead b j
  | clearStatusEnd => exact h.jobTransactionEnd _ fun j u hu => hu.finishJob _
  | verifyReadEnd data => exact h.execVerifyEnd data
  | holdTimeExpiry => exact h.execHoldExpiry
  | suspendCommandEnd =>
    exact h.jobTransactionEnd .suspendCommand
      (act := fun _ t => (t.updFsq (fun q => { q with suspendTime := 0 })).beginSuspendedRead)
      fun j u hu => hu.of_same (by rfl)
  | suspendedStatusReadEnd b => exact h.jobTransactionEnd _ fun j u hu => hu.suspendedStatus b j
  | suspendPollIntervalExpiry => exact h.execSuspendPollExpiry
  | suspendTimeout => exact h.execSuspendTimeout
  | resumeEnd => exact h.execResumeEnd
  | recoveryResetCommandEnd => exact h.execRecoveryResetEnd
  | recoveryWaitEnd => exact h.execRecoveryWaitEnd
  | recoveryStatusReadEnd b => exact h.execRecoveryStatusEnd b
  | recoveryIdReadEnd i => exact h.execRecoveryIdEnd i
  | recoveryTimeout => exact h.execRecoveryTimeout
  | linkBByteReceived b => exact h.execByteReceived b

theorem step (h : InBounds s) : EndsInBounds (step s) := fun t e => by
  rcases step_next e with ⟨-, rfl⟩ | ⟨c, rest, -, hc⟩
  · unfold State.tick
    split
    · exact h.advance 1
    · exact h
  · exact InBounds.exec (s := { s with pending := rest }) (h.of_same (by rfl)) c t hc

end InBounds

/-- Settles O57: `InBounds` is the order and the bounds together, and every command keeps it. -/
theorem stepKeepsQueueAndBounds : Obligations.StepKeepsQueueAndBounds :=
  fun _ t hs h => inBounds_iff.mp ((inBounds_iff.mpr hs).step t h)

end Sys2Proof.Machine
end

section
/-! PROOFS. The checks of a READ, its acceptance, and a READ over a hold. -/

namespace Sys2Proof.Machine

/-! ### In FAULTED a lookup creates no entry -/

theorem lookup_fills_of_faulted {s : State} (h : s.fsq.state = .faulted) (w : Waiter) : (s.lookup w).fills = s.fills := by
  unfold State.lookup
  split
  · rfl
  · next r _ =>
    have fails : s.missNeed r w = s.countMiss.failNeed w := if_pos h
    dsimp only
    split
    · split
      · rfl
      · rfl
    · rw [fails, failNeed_fills]
      rfl

theorem lookups_fills_of_faulted {s : State} (h : s.fsq.state = .faulted) (id : RecordId) (is : List Nat) :
    (s.lookups id is).fills = s.fills := by
  unfold State.lookups
  induction is generalizing s with
  | nil => rfl
  | cons i is ih =>
    have still : (s.lookup ⟨id, i⟩).fsq.state = .faulted := by rw [(State.TablesOnly.lookup s ⟨id, i⟩).fsq, h]
    rw [List.foldl_cons, ih still, lookup_fills_of_faulted h]

/-! ### A READ is accepted -/

/-- The reply of a READ: its bytes with OK, none otherwise (R36). -/
theorem reply_of_read {r : Record} (h : r.kind = .read) :
    r.reply = replyMessage .read r.tag r.status (if r.status = .ok then r.gathered else []) := by
  unfold Record.reply
  rw [h]

/-- Once a READ is complete, its lookups have created no entry: all of its needs hit, or FSQ is FAULTED (R36, R38). -/
theorem no_entry_of_complete_read {s : State} {r0 r : Record} (hk : r0.kind = .read)
    (h : Record.Progress s (s.lookups r0.id (List.range r0.needs.length)) r0 r r0.needs.length)
    (complete : r.isComplete = true) :
    (s.lookups r0.id (List.range r0.needs.length)).fills.length = s.fills.length := by
  have kind : r.kind = .read := by rw [h.same]; exact hk
  have ends : NeedState.failed ∈ r.needs ∨ ∀ n ∈ r.needs, n = .haveLine := by
    simpa [Record.isComplete, kind] using complete
  obtain failed | all := ends
  · obtain ⟨k, hk⟩ := List.mem_iff_getElem?.mp failed
    obtain ⟨-, unfailed⟩ | ⟨-, faulted⟩ := h.status
    · exact absurd hk (unfailed k)
    · rw [lookups_fills_of_faulted faulted]
  · refine h.created.resolve_right fun ⟨k, hk⟩ => ?_
    cases all _ (List.mem_of_getElem? hk)

section LookedUpRead

variable {l : Link} {tag : Byte} {p : List Byte} {s : State}

/-- A READ whose lines have been looked up is answered at once if it is complete, and else its record stands. -/
theorem accepted_of_lookedUp_read {u : State} {rs : List Record} {r : Record} {range : Range} (ho : (s.link l).isOpen = true)
    (standing : u.HasLast rs r) (links : LinksSame (s.afterTake l) u) (fsq : u.fsq = s.fsq) (own : r.isOf .read l tag range s)
    (status : r.status = .ok ∨ (r.status = .flashFault ∧ s.fsq.state = .faulted))
    (no_entry : r.isComplete = true → u.fills.length = (s.afterTake l).fills.length) :
    Accepted .read .read l tag range s (kickIfCreated (s.afterTake l) (u.settle r.id)) := by
  cases complete : r.isComplete with
  | false =>
    rw [settle_of_last_waiting standing complete]
    exact accepted_of_waits links fsq (by rw [standing.1]; simp) own
  | true =>
    obtain ⟨hlink, hsession, htag, hkind, -⟩ := own
    rw [settle_of_last standing complete, hlink, hsession, kickIfCreated, if_neg, reply_of_read hkind, htag]
    · have gone : LinksSame u { u.withdraw r.id with records := rs } := ⟨rfl, rfl, rfl, rfl, rfl, rfl⟩
      refine accepted_of_answer ho (links.trans gone) rfl rfl status (fun _ fault => ?_) (fun e => absurd e (by decide)) ?_
      · exact if_neg fun ok => absurd (ok.symm.trans fault) (by decide)
      · intro x hx e
        exact standing.2 x hx (by rw [Record.id, Record.id, e.1, e.2, hlink, htag])
    · rw [place_fills]
      show ¬ (s.afterTake l).fills.length < (u.withdraw r.id).fills.length
      rw [withdraw_fills_length, no_entry complete]
      exact lt_irrefl _

/-- The record of a READ before its lines are looked up. -/
theorem newRead_needs (q : Request) (range : Range) {k : Nat} (hk : k < (newRecord q .read range).needs.length) :
    (newRecord q .read range).needs[k]? = some .waitRelease := by
  have size : (newRecord q .read range).needs.length = lineCount range.base range.length := List.length_replicate
  rw [newRecord, List.getElem?_replicate, if_pos (size ▸ hk)]

/-- A READ over no hold that passes its checks is accepted (R29). -/
theorem acceptRead_accepted (ho : (s.link l).isOpen = true) (unused : ∀ q ∈ s.records, q.id ≠ { link := l, tag := tag })
    (no_hold : (s.afterTake l).overlapsHold (payloadRange p 2) = false) :
    Accepted .read .read l tag (payloadRange p 2) s ((s.afterTake l).acceptRead
      { link := l, session := (s.link l).session, tag := tag, payload := p } (payloadRange p 2)) := by
  obtain ⟨r0, hr0⟩ : ∃ r0, r0 = newRecord { link := l, session := (s.link l).session, tag := tag, payload := p } .read
    (payloadRange p 2) := ⟨_, rfl⟩
  have last : ((s.afterTake l).addRecord r0).HasLast s.records r0 := by
    rw [← afterTake_records s l]
    exact addRecord_last (by rw [afterTake_records, hr0]; exact unused)
  obtain ⟨rs, r, standing, progress⟩ := lookups_progress last (by rw [hr0]; exact fun _ => newRead_needs _ _)
    (by rw [hr0]; rfl) (by rw [hr0]; rfl) (le_refl r0.needs.length)
  have only := lookups_tablesOnly ((s.afterTake l).addRecord r0) r0.id (List.range r0.needs.length)
  have fsq : ((s.afterTake l).addRecord r0).fsq = s.fsq := afterTake_fsq s l
  have links : LinksSame (s.afterTake l) ((s.afterTake l).addRecord r0) := ⟨rfl, rfl, rfl, rfl, rfl, rfl⟩
  have own : r.isOf .read l tag (payloadRange p 2) s := by
    have size : r.needs.length = lineCount (payloadRange p 2).base (payloadRange p 2).length := by
      rw [progress.size, hr0]
      exact List.length_replicate
    rw [progress.same, hr0]
    exact ⟨rfl, rfl, rfl, rfl, rfl, rfl, size⟩
  have id : r.id = r0.id := by rw [progress.same]; rfl
  have settled := accepted_of_lookedUp_read ho standing (links.trans only.links) (only.fsq.trans fsq) own
    (progress.status.imp And.left fun ⟨fault, faulted⟩ => ⟨fault, fsq ▸ faulted⟩)
    (no_entry_of_complete_read (by rw [hr0]; rfl) progress)
  rw [State.acceptRead, ← hr0, no_hold, ← id]
  rwa [← id] at settled

end LookedUpRead

/-! ### The checks of a READ -/

theorem readChecks_afterTake (q : Request) (s : State) (l : Link) : readChecks q (s.afterTake l) = readChecks q s := by
  simp [readChecks]

theorem readBody_refuses {q : Request} {s : State} {st : Status} (h : firstFailure (readChecks q s) = some st) :
    readBody q s = q.refuse .read st s := by rw [readBody, h]

theorem readBody_accepts {q : Request} {s : State} (h : firstFailure (readChecks q s) = none) :
    readBody q s = s.acceptRead q (payloadRange q.payload 2) := by rw [readBody, h]

theorem fresh_of_readChecks {q : Request} {s : State} (checks : firstFailure (readChecks q s) = none) :
    ∀ r ∈ s.records, r.id ≠ { link := q.link, tag := q.tag } :=
  tagInUse_eq_false.mp (check_passed checks (st := .tagInUse) (by simp [readChecks]))

section ReadRequest

variable {l : Link} {tag : Byte} {p : List Byte} {s : State}

/-- A READ frame that is taken runs steps 4 and 5 of R159 on the state with the frame taken. -/
theorem exec_read (ht : s.takesRequest .read l tag p = true) : exec (.read l.arrival tag p) s =
    .next (({ link := l, session := (s.link l).session, tag := tag, payload := p } : Request).serve .read readBody
      (s.afterTake l)) :=
  (requestArrives_arrival .read readBody l tag p s).trans (frameTaken_of_takes _ _ _ _ _ _ ht)

/-- A READ over a hold joins the acceptance order PARKED, with no need looked up (R29, R84). -/
theorem acceptRead_parks (q : Request) {r : Range} (hold : s.overlapsHold r = true) :
    s.acceptRead q r = s.addRecord { newRecord q .read r with state := .parked } := by
  rw [State.acceptRead, hold]
  rfl

/-- A request on an OPEN link, at one of its checks: it is refused with the check's status, or the rest decides. -/
theorem check_decides {k : Kind} {t : State} {first : Option Status} (ho : (s.link l).isOpen = true)
    (refuses : ∀ st, first = some st →
      t = ({ link := l, session := (s.link l).session, tag := tag, payload := p } : Request).refuse k st (s.afterTake l))
    {b : Bool} {st : Status} {cs : List (Bool × Status)} {P A : Prop} (dec : Decidable P)
    (left : first = firstFailure ((b, st) :: cs)) (test : b = true ↔ P) (rest : first = firstFailure cs → A) :
    if P then Refused k l tag p st s t else A := by
  rw [firstFailure_cons] at left
  split
  · next fails =>
    rw [refuses st (left.trans (if_pos (test.mpr fails)))]
    exact refused_at_once _ _ _ _ ho
  · next passes => exact rest (left.trans (if_neg (mt test.mp passes)))

/-- A READ whose checks pass is accepted, over a hold or not. -/
theorem readBody_accepted (ho : (s.link l).isOpen = true)
    (passed : firstFailure (readChecks { link := l, session := (s.link l).session, tag := tag, payload := p } s) = none) :
    Accepted .read .read l tag (payloadRange p 2) s
      (readBody { link := l, session := (s.link l).session, tag := tag, payload := p } (s.afterTake l)) := by
  rw [readBody_accepts (by rw [readChecks_afterTake, passed])]
  cases hold : (s.afterTake l).overlapsHold (payloadRange p 2) with
  | false => exact acceptRead_accepted ho (fresh_of_readChecks passed) hold
  | true =>
    rw [acceptRead_parks _ hold]
    have parked := accepted_of_waits (k := .read) (rk := .read) (l := l) (tag := tag) (r := payloadRange p 2) (s := s)
      (u := (s.afterTake l).addRecord { newRecord { link := l, session := (s.link l).session, tag := tag, payload := p } .read
        (payloadRange p 2) with state := .parked })
      ⟨rfl, rfl, rfl, rfl, rfl, rfl⟩ (afterTake_fsq s l) (List.mem_append_right _ List.mem_cons_self)
      ⟨rfl, rfl, rfl, rfl, rfl, rfl, List.length_replicate ..⟩
    rwa [kickIfCreated_eq_self (by rfl)] at parked

end ReadRequest

/-- Settles O21: a CLOSED link refuses and discards; on an OPEN one the first check that fails refuses, and with none the READ
is accepted. -/
theorem readIsChecked : Obligations.ReadIsChecked := by
  intro l tag p s ht
  refine ⟨_, exec_read ht, fun closed => ?_, fun ho => ?_⟩
  · rw [serve_closed _ _ _ _ rfl (by simpa using closed)]
    exact ⟨discarded_at_once s l _ closed, blocks_of_place s l _ _⟩
  have opened : ((s.afterTake l).link l).isOpen = true := by simpa using ho
  split
  · next size =>
    rw [serve_wrongSize _ _ _ _ (.inr opened) (by simpa [wrongSize, fixedSize] using size)]
    exact refused_at_once _ _ _ _ ho
  next size =>
  rw [serve_body _ _ _ _ (.inr opened) (by simpa [wrongSize, fixedSize] using size)]
  have refuses := fun st fails => readBody_refuses (st := st)
    ((congrArg firstFailure (readChecks_afterTake ⟨l, (s.link l).session, tag, p⟩ s l)).trans fails)
  refine check_decides ho refuses _ rfl lengthBad_iff fun left => ?_
  refine check_decides ho refuses _ left beyond_iff fun left => ?_
  refine check_decides ho refuses _ left tagInUse_iff fun left => ?_
  refine check_decides ho refuses _ left tableBusy_iff fun left => ?_
  exact readBody_accepted ho (left.trans firstFailure_nil)

/-- Settles O23: with its checks passed and its range held, only the record, PARKED, is added. -/
theorem readOverAHoldParks : Obligations.ReadOverAHoldParks := by
  intro l tag p s ht ho passed size hold
  have held : (s.afterTake l).overlapsHold (payloadRange p 2) = true := by rw [afterTake_overlapsHold]; exact hold
  refine ⟨_, exec_request ht ho (by simp [wrongSize, fixedSize, size]), ?_⟩
  dsimp only [bodyOf]
  rw [readBody_accepts (by rw [readChecks_afterTake, passed]), acceptRead_parks _ held]
  refine ⟨by rw [← afterTake_records s l]; rfl, frameTaken_of_linksSame ⟨rfl, rfl, rfl, rfl, rfl, rfl⟩, afterTake_cache s l,
    afterTake_fills s l, ⟨afterTake_jq s l, afterTake_staging s l, afterTake_protection s l⟩, afterTake_fsq s l,
    afterTake_counters s l⟩

end Sys2Proof.Machine
end

section
/-! PROOFS. A READ of one line that misses and creates no entry: it attaches, waits for a slot, or fails in FAULTED. -/

namespace Sys2Proof.Machine

/-! ### Where a miss creates no entry -/

section MissNeed

variable {s : State} (r : Record) (w : Waiter)

/-- In FAULTED the need fails (R38). -/
theorem missNeed_fails (h : s.fsq.state = .faulted) : s.missNeed r w = s.countMiss.failNeed w := if_pos h

theorem fill_isSome_iff {a : Nat} : (s.fill a).isSome = true ↔ ∃ f ∈ s.fills, f.line = a := by
  simp [State.fill, List.find?_isSome]

/-- With an entry of its line it attaches to that (R43). -/
theorem missNeed_attaches (h : s.fsq.state ≠ .faulted) (entry : ∃ f ∈ s.fills, f.line = r.lineOf w.index) :
    s.missNeed r w = s.countMiss.attach (r.lineOf w.index) w :=
  (if_neg h).trans (if_pos (fill_isSome_iff.mpr entry))

/-- With no such entry and none free it waits for a slot (R47). -/
theorem missNeed_waitsSlot (h : s.fsq.state ≠ .faulted) (fresh : ∀ f ∈ s.fills, f.line ≠ r.lineOf w.index)
    (full : 8 ≤ s.fills.length) : s.missNeed r w = s.countMiss.setNeed w .waitSlot := by
  have none : ¬ (s.fill (r.lineOf w.index)).isSome = true := fun entry => by
    obtain ⟨f, hf, line⟩ := fill_isSome_iff.mp entry
    exact fresh f hf line
  have used : ¬ s.fillFree = true := fun free => absurd (of_decide_eq_true free : s.fills.length < 8) (by omega)
  exact (if_neg h).trans ((if_neg none).trans (if_neg used))

end MissNeed

/-! ### What becomes of the one need -/

/-- A record with a need that has failed (R38). -/
def Record.fail (r : Record) (i : Nat) : Record := { r.setNeed i .failed with status := .flashFault }

/-- A PIN's claim for the line of its one need is taken back (R38). -/
def State.unclaimed (s : State) (r : Record) : State :=
  match r.kind with
  | .read => s
  | .pin => s.dropClaim (r.lineOf 0)

theorem unclaimed_records (s : State) (r : Record) : (s.unclaimed r).records = s.records := by
  unfold State.unclaimed
  split <;> rfl

theorem unclaimed_fills (s : State) (r : Record) : (s.unclaimed r).fills = s.fills := by
  unfold State.unclaimed
  split <;> rfl

section OneNeed

variable {s : State} {rs : List Record} {r : Record} (h : s.HasLast rs r) {n : NeedState} (hn : r.needs = [n])
include h hn

/-- The one need fails, and the record is answered FLASH_FAULT (R36 to R38). -/
theorem failNeed_answered (hw : ∀ f ∈ s.fills, ∀ w ∈ f.waiters, w.id ≠ r.id) :
    (s.failNeed ⟨r.id, 0⟩).settle r.id =
      ({ s.unclaimed r with records := rs } : State).place r.link r.session r.faultReply := by
  have last : (s.unclaimed r).HasLast rs r := h.of_records (unclaimed_records s r)
  have failed : s.failNeed ⟨r.id, 0⟩ = (s.unclaimed r).updRecord r.id (fun q => q.fail 0) := by
    unfold State.failNeed State.unclaimed
    rw [record_of_last h]
    dsimp only
    cases r.kind
    · rfl
    · rfl
  have done : (r.fail 0).isComplete = true := by
    cases kind : r.kind <;> simp [Record.isComplete, Record.fail, Record.setNeed, kind, hn]
  have reply : (r.fail 0).reply = r.faultReply := by
    cases kind : r.kind <;> simp [Record.reply, Record.faultReply, Record.fail, Record.setNeed, kind]
  rw [failed, settle_updRecord last _ rfl done (by rw [unclaimed_fills]; exact hw), reply]
  rfl

/-- The one need attaches to the entry of a line, as its last waiter (R43). -/
theorem attach_of_last (a : Nat) : s.attach a ⟨r.id, 0⟩ =
    { s with
      records := rs ++ [{ r with needs := [.waitFill] }]
      fills := s.fills.map (fun f => if f.line = a then { f with waiters := f.waiters ++ [⟨r.id, 0⟩] } else f)
      counters := { s.counters with fillAttach := s.counters.fillAttach + 1 } } := by
  unfold State.attach
  rw [setNeed_of_last (s := s.updFill a _) (h.of_records rfl) hn]
  rfl

end OneNeed

/-! ### The READ -/

section Miss

variable {l : Link} {tag : Byte} {p : List Byte} {s : State}

/-- A READ of one line that misses goes on by `missNeed` on the state with its record, and FSQ goes on if that has created an
entry. -/
theorem exec_plainRead_miss (h : PlainRead l tag p s)
    (miss : (s.set (setIndex (field p 0 4))).hit (cacheTag (field p 0 4)) = none) :
    exec (.read l.arrival tag p) s = .next (kickIfCreated (s.afterTake l)
      ((((s.afterTake l).addRecord (waitingRead l tag p .waitRelease s)).missNeed (waitingRead l tag p .waitRelease s)
        ⟨(waitingRead l tag p .waitRelease s).id, 0⟩).settle (waitingRead l tag p .waitRelease s).id)) := by
  rw [exec_plainRead h, lookup_miss (waitingRead_last h .waitRelease)]
  rw [setIndex_lineOf_zero rfl, cacheTag_lineOf_zero rfl, addRecord_set, afterTake_set]
  exact miss

/-- In FAULTED it is answered FLASH_FAULT at once. -/
theorem plainRead_fails (h : PlainRead l tag p s) (waiters : WaitersOk s)
    (miss : (s.set (setIndex (field p 0 4))).hit (cacheTag (field p 0 4)) = none) (faulted : s.fsq.state = .faulted) :
    exec (.read l.arrival tag p) s = .next
      ((s.afterTake l).countMiss.place l (s.link l).session (replyMessage .read tag .flashFault [])) := by
  have last := (waitingRead_last h .waitRelease).of_records
    (t := ((s.afterTake l).addRecord (waitingRead l tag p .waitRelease s)).countMiss) rfl
  have unused : ∀ f ∈ (s.afterTake l).fills, ∀ x ∈ f.waiters, x.id ≠ (waitingRead l tag p .waitRelease s).id := by
    rw [afterTake_fills]
    exact no_waiter_of_fresh waiters h.fresh
  have still : ((s.afterTake l).addRecord (waitingRead l tag p .waitRelease s)).fsq.state = .faulted :=
    (congrArg Fsq.state (afterTake_fsq s l)).trans faulted
  rw [exec_plainRead_miss h miss, missNeed_fails _ _ still, failNeed_answered last rfl unused,
    kickIfCreated_eq_self (by rw [place_fills]; rfl)]
  have records : s.records = (s.afterTake l).records := (afterTake_records s l).symm
  conv_lhs => rw [records]
  rfl

/-- The state once a READ of one line waits beside the entries as they are given. -/
def State.readWaits (s : State) (l : Link) (tag : Byte) (p : List Byte) (n : NeedState) (fills : List Fill)
    (counters : Counters) : State :=
  { s.afterTake l with records := s.records ++ [waitingRead l tag p n s], fills := fills, counters := counters }

/-- A READ that waits is not answered, and with no entry more FSQ does nothing. -/
theorem settle_readWaits (h : PlainRead l tag p s) (n : NeedState) (hn : n ≠ .haveLine ∧ n ≠ .failed) {fills : List Fill}
    (same : fills.length = s.fills.length) (counters : Counters) :
    kickIfCreated (s.afterTake l)
      ((s.readWaits l tag p n fills counters).settle (waitingRead l tag p .waitRelease s).id) =
      s.readWaits l tag p n fills counters := by
  have stands : (s.readWaits l tag p n fills counters).HasLast s.records (waitingRead l tag p n s) :=
    ⟨rfl, (waitingRead_last h n).2⟩
  have waits : (waitingRead l tag p n s).isComplete = false := by simp [Record.isComplete, waitingRead, hn]
  have id : (waitingRead l tag p .waitRelease s).id = (waitingRead l tag p n s).id := rfl
  rw [id, settle_of_last_waiting stands waits, kickIfCreated, if_neg]
  show ¬ (s.afterTake l).fills.length < fills.length
  rw [same, afterTake_fills]
  exact lt_irrefl _

/-- It attaches to the entry of its line. -/
theorem plainRead_attaches (h : PlainRead l tag p s)
    (miss : (s.set (setIndex (field p 0 4))).hit (cacheTag (field p 0 4)) = none) (running : s.fsq.state ≠ .faulted)
    (entry : ∃ f ∈ s.fills, f.line = lineAddress (field p 0 4)) :
    exec (.read l.arrival tag p) s = .next (s.readWaits l tag p .waitFill
      (s.fills.map (fun f => if f.line = lineAddress (field p 0 4) then
        { f with waiters := f.waiters ++ [{ id := { link := l, tag := tag }, index := 0 }] } else f))
      { s.counters with lookupMiss := s.counters.lookupMiss + 1, fillAttach := s.counters.fillAttach + 1 }) := by
  have last := (waitingRead_last h .waitRelease).of_records
    (t := ((s.afterTake l).addRecord (waitingRead l tag p .waitRelease s)).countMiss) rfl
  have up : ((s.afterTake l).addRecord (waitingRead l tag p .waitRelease s)).fsq.state ≠ .faulted := by
    show (s.afterTake l).fsq.state ≠ _
    rwa [afterTake_fsq]
  have line : (waitingRead l tag p .waitRelease s).lineOf 0 = lineAddress (field p 0 4) := lineOf_zero _
  rw [exec_plainRead_miss h miss, missNeed_attaches _ _ up, attach_of_last last rfl, line]
  · rw [← settle_readWaits h .waitFill ⟨by decide, by decide⟩ (List.length_map _)]
    unfold State.readWaits
    simp only [State.addRecord, State.countMiss, updCounters_fills, updCounters_counters, afterTake_fills, afterTake_counters]
    rfl
  · show ∃ f ∈ (s.afterTake l).fills, f.line = (waitingRead l tag p .waitRelease s).lineOf 0
    rw [afterTake_fills, line]
    exact entry

/-- It waits for a slot. -/
theorem plainRead_waitsSlot (h : PlainRead l tag p s)
    (miss : (s.set (setIndex (field p 0 4))).hit (cacheTag (field p 0 4)) = none) (running : s.fsq.state ≠ .faulted)
    (fresh : ∀ f ∈ s.fills, f.line ≠ lineAddress (field p 0 4)) (full : 8 ≤ s.fills.length) :
    exec (.read l.arrival tag p) s = .next (s.readWaits l tag p .waitSlot s.fills
      { s.counters with lookupMiss := s.counters.lookupMiss + 1 }) := by
  have last := (waitingRead_last h .waitRelease).of_records
    (t := ((s.afterTake l).addRecord (waitingRead l tag p .waitRelease s)).countMiss) rfl
  have up : ((s.afterTake l).addRecord (waitingRead l tag p .waitRelease s)).fsq.state ≠ .faulted := by
    show (s.afterTake l).fsq.state ≠ _
    rwa [afterTake_fsq]
  rw [exec_plainRead_miss h miss, missNeed_waitsSlot _ _ up, setNeed_of_last last rfl]
  · rw [← settle_readWaits h .waitSlot ⟨by decide, by decide⟩ rfl]
    unfold State.readWaits
    simp only [State.addRecord, State.countMiss]
    rw [← afterTake_fills s l, ← afterTake_counters s l]
    rfl
  · show ∀ f ∈ (s.afterTake l).fills, _
    rw [afterTake_fills, lineOf_zero]
    exact fresh
  · show 8 ≤ (s.afterTake l).fills.length
    rwa [afterTake_fills]

end Miss

/-- Settles O26: in FAULTED the one need fails; else it attaches to the entry of its line, or waits while all are in use. -/
theorem readMissAttachesWaitsOrFails : Obligations.ReadMissAttachesWaitsOrFails := by
  intro l tag p s plain miss waiters which
  have h := plainRead_iff plain
  have jobs : JobSideSame s (s.afterTake l) := ⟨afterTake_jq s l, afterTake_staging s l, afterTake_protection s l⟩
  by_cases faulted : s.fsq.state = .faulted
  · refine ⟨_, plainRead_fails h waiters miss faulted, by simp [State.countMiss], ⟨?_, ?_, ?_⟩, ?_, fun _ => ⟨?_, ?_, ?_, ?_⟩,
      fun up => absurd faulted up, fun up => absurd faulted up⟩
    case refine_5 => exact answered_of_linksSame _ h.isOpen ⟨rfl, rfl, rfl, rfl, rfl, rfl⟩
    all_goals simp [State.countMiss]
  by_cases entry : ∃ f ∈ s.fills, f.line = lineAddress (field p 0 4)
  · refine ⟨_, plainRead_attaches h miss faulted entry, afterTake_cache s l, jobs, afterTake_fsq s l,
      fun down => absurd down faulted, fun _ _ => ⟨rfl, rfl, ?_, rfl⟩, fun _ none _ => ?_⟩
    · exact frameTaken_of_linksSame ⟨rfl, rfl, rfl, rfl, rfl, rfl⟩
    · obtain ⟨f, hf, line⟩ := entry
      exact absurd line (none f hf)
  · have fresh : ∀ f ∈ s.fills, f.line ≠ lineAddress (field p 0 4) := fun f hf line => entry ⟨f, hf, line⟩
    have full : 8 ≤ s.fills.length := (which.resolve_left faulted).resolve_left entry
    refine ⟨_, plainRead_waitsSlot h miss faulted fresh full, afterTake_cache s l, jobs, afterTake_fsq s l,
      fun down => absurd down faulted, fun _ some => absurd some entry, fun _ _ _ => ⟨rfl, rfl, ?_, rfl⟩⟩
    exact frameTaken_of_linksSame ⟨rfl, rfl, rfl, rfl, rfl, rfl⟩

end Sys2Proof.Machine
end

section
/-! PROOFS. In FAULTED no entry is created and no VALID way is lost: what the failing of needs and the end of entries and jobs
leave of cache and entries. -/

namespace Sys2Proof.Machine

/-! ### What stands in FAULTED -/

/-- A VALID way stays VALID with its tag. -/
def Line.StaysValid (x y : Line) : Prop := x.isValid = true → y.isValid = true ∧ y.tag = x.tag

theorem Line.StaysValid.refl (x : Line) : x.StaysValid x := fun h => ⟨h, rfl⟩

theorem Line.StaysValid.trans {x y z : Line} (h : x.StaysValid y) (g : y.StaysValid z) : x.StaysValid z := fun hx =>
  have hy := h hx
  have hz := g hy.1
  ⟨hz.1, hz.2.trans hy.2⟩

theorem withPinned_staysValid (x : Line) (p : Bool) : x.StaysValid (x.withPinned p) := fun h =>
  ⟨(withPinned_isValid x p).trans h, withPinned_tag x p⟩

/-- A change of one set that keeps its VALID ways. -/
theorem updSet_staysValid {s : State} {k : Fin 128} {g : CacheSet → CacheSet}
    (h : ∀ w : Fin 4, (s.set k).ways[w].StaysValid (g (s.set k)).ways[w]) (i : Fin 128) (w : Fin 4) :
    (s.set i).ways[w].StaysValid ((s.updSet k g).set i).ways[w] := by
  by_cases e : k = i
  · subst e
    rw [updSet_set]
    exact h w
  · rw [updSet_set_other _ _ _ _ e]
    exact .refl _

/-- FSQ is FAULTED in a state reached from another: the part still has one copy of a line, no line has an entry that had none,
and every VALID way stands with its tag. -/
structure FromFault (s t : State) : Prop where
  faulted : t.fsq.state = .faulted
  cacheOk : CacheOk t
  lines : t.fills.map Fill.line ⊆ s.fills.map Fill.line
  ways : ∀ (i : Fin 128) (w : Fin 4), (s.set i).ways[w].StaysValid (t.set i).ways[w]

namespace FromFault

variable {s t u : State}

theorem refl (faulted : s.fsq.state = .faulted) (cacheOk : CacheOk s) : FromFault s s :=
  ⟨faulted, cacheOk, List.Subset.refl _, fun _ _ => .refl _⟩

theorem trans (h : FromFault s t) (g : FromFault t u) : FromFault s u :=
  ⟨g.faulted, g.cacheOk, List.Subset.trans g.lines h.lines, fun i w => (h.ways i w).trans (g.ways i w)⟩

/-- One operation more. -/
theorem next (h : FromFault s t) (moves : CacheMoves t u) (state : u.fsq.state = t.fsq.state)
    (lines : u.fills.map Fill.line = t.fills.map Fill.line)
    (ways : ∀ (i : Fin 128) (w : Fin 4), (t.set i).ways[w].StaysValid (u.set i).ways[w]) : FromFault s u :=
  h.trans ⟨state.trans h.faulted, moves.keeps_cacheOk h.cacheOk, fun _ hb => lines ▸ hb, ways⟩

/-- One operation more that leaves the cache and the lines of the entries. -/
theorem next_same (h : FromFault s t) (moves : CacheMoves t u) (state : u.fsq.state = t.fsq.state)
    (lines : u.fills.map Fill.line = t.fills.map Fill.line) (cache : u.cache = t.cache) : FromFault s u :=
  h.next moves state lines fun i w => by
    rw [set_eq_of_cache cache]
    exact .refl _

theorem foldl {α : Type} {f : State → α → State} (h : FromFault s t)
    (step : ∀ (t : State) (x : α), FromFault s t → FromFault s (f t x)) (xs : List α) : FromFault s (xs.foldl f t) := by
  induction xs generalizing t with
  | nil => exact h
  | cons x xs ih => exact ih (step t x h)

/-! ### Lookups -/

theorem dropClaim_ways (s : State) (a : Nat) (i : Fin 128) : ((s.dropClaim a).set i).ways = (s.set i).ways := by
  unfold State.dropClaim
  by_cases e : setIndex a = i
  · subst e
    rw [updSet_set]
  · rw [updSet_set_other _ _ _ _ e]

theorem failNeed_ways (s : State) (w : Waiter) (i : Fin 128) : ((s.failNeed w).set i).ways = (s.set i).ways := by
  unfold State.failNeed
  split
  · rfl
  · split
    · rfl
    · exact dropClaim_ways _ _ i

theorem failNeed (h : FromFault s t) (w : Waiter) : FromFault s (t.failNeed w) :=
  h.next (failNeed_moves t w) (congrArg Fsq.state (failNeed_only t w).1)
    (congrArg (List.map Fill.line) (failNeed_fills t w)) fun i v => by
    rw [failNeed_ways]
    exact .refl _

theorem hitRead_ways (s : State) (r : Record) (k : Nat) (v : Fin 4) (i : Fin 128) :
    ((s.hitRead r k v).set i).ways = (s.set i).ways := by
  have set : (s.hitRead r k v).set i = (s.updSet (setIndex (r.lineOf k)) (fun c => c.toFront v)).set i := rfl
  rw [set]
  by_cases e : setIndex (r.lineOf k) = i
  · subst e
    rw [updSet_set]
    rfl
  · rw [updSet_set_other _ _ _ _ e]

/-- A PIN's hit changes the pinned flag at most (R5). -/
theorem hitPin_ways (s : State) (r : Record) (k : Nat) (v : Fin 4) (i : Fin 128) (w : Fin 4) :
    (s.set i).ways[w].StaysValid ((s.hitPin r k v).set i).ways[w] := by
  have set : (s.hitPin r k v).set i = (s.updSet (setIndex (r.lineOf k)) (fun c => c.pinWay v)).set i := rfl
  rw [set]
  refine updSet_staysValid (fun w => ?_) i w
  show (s.set _).ways[w].StaysValid (((s.set _).toFront v).setPinned v true).ways[w]
  by_cases e : v = w
  · subst e
    rw [CacheSet.setPinned, putLine_self]
    exact withPinned_staysValid _ true
  · rw [CacheSet.setPinned, putLine_other _ _ _ _ e]
    exact .refl _

/-- A lookup in FAULTED hits or fails (R32, R38). -/
theorem lookup (h : FromFault s t) (w : Waiter) : FromFault s (t.lookup w) := by
  have moves := lookup_moves t w
  have only := congrArg Fsq.state (lookup_only t w).1
  have lines := congrArg (List.map Fill.line) (lookup_fills_of_faulted h.faulted w)
  refine h.next moves only lines fun i v => ?_
  unfold State.lookup
  split
  · exact .refl _
  · next r _ =>
    dsimp only
    split
    · next x _ =>
      split
      · rw [hitRead_ways]
        exact .refl _
      · exact hitPin_ways t r w.index x i v
    · rw [missNeed_fails r w h.faulted, failNeed_ways]
      exact .refl _

theorem lookups (h : FromFault s t) (id : RecordId) (is : List Nat) : FromFault s (t.lookups id is) :=
  h.foldl (fun _ i ht => ht.lookup ⟨id, i⟩) is

/-! ### Completion, parking, release -/

theorem place (h : FromFault s t) (l : Link) (x : Byte) (m : Message) : FromFault s (t.place l x m) :=
  h.next_same (place_moves t l x m) (by rw [place_fsq]) (by rw [place_fills]) (place_cache ..)

theorem withdraw (h : FromFault s t) (id : RecordId) : FromFault s (t.withdraw id) :=
  h.next_same (withdraw_moves t id) rfl (withdraw_lines t id) rfl

/-- The Request Table alone changes. -/
theorem records (h : FromFault s t) (rs : List Record) : FromFault s { t with records := rs } :=
  h.next_same (CacheMoves.of_same rfl rfl) rfl rfl rfl

theorem settle (h : FromFault s t) (id : RecordId) : FromFault s (t.settle id) := by
  unfold State.settle
  split
  · exact h
  · split
    · exact ((h.withdraw _).records _).place _ _ _
    · exact h

theorem returnToLookup (h : FromFault s t) (w : Waiter) : FromFault s (t.returnToLookup w) := by
  unfold State.returnToLookup
  split
  · exact h
  · split
    · exact (h.records _).withdraw _
    · exact (h.lookup w).settle _

theorem release (h : FromFault s t) (id : RecordId) : FromFault s (t.release id) := by
  unfold State.release
  split
  · exact h
  · exact ((h.records _).lookups _ _).settle _

theorem reexamine (h : FromFault s t) : FromFault s t.reexamine := by
  refine h.foldl (fun u id hu => ?_) _
  unfold State.reexamineOne
  split
  · exact hu
  · split
    · exact hu.release _
    · exact hu

/-! ### The end of an entry -/

theorem handSlots (h : FromFault s t) (ws : List Waiter) : FromFault s (handSlots ws t) := by
  induction ws generalizing t with
  | nil => exact h
  | cons w ws ih =>
    unfold Machine.handSlots
    split
    · dsimp only
      split
      · exact h.returnToLookup w
      · exact ih (h.returnToLookup w)
    · exact ih h

theorem afterEnd (h : FromFault s t) (a : Nat) : FromFault s (t.afterEnd a) := by
  refine (h.handSlots _).foldl (fun u w hu => ?_) _
  unfold State.retryWay
  split
  · exact hu.returnToLookup w
  · exact hu

theorem failWaiter (h : FromFault s t) (w : Waiter) : FromFault s (t.failWaiter w) := (h.failNeed w).settle _

theorem failIfWaiting (h : FromFault s t) (n : NeedState) (w : Waiter) : FromFault s (t.failIfWaiting n w) := by
  unfold State.failIfWaiting
  split
  · exact h.failWaiter w
  · exact h

/-- The set of an entry without install has lost the entry's way at most. -/
theorem releaseWay_way (s : State) (f : Fill) (i : Fin 128) (w : Fin 4) :
    (f.Binds i w → ((s.releaseWay f).set i).ways[w] = .invalid) ∧
    (¬ f.Binds i w → ((s.releaseWay f).set i).ways[w] = (s.set i).ways[w]) := by
  unfold State.releaseWay
  split
  · next none => exact ⟨fun binds => (by cases none.symm.trans binds.1), fun _ => rfl⟩
  · next v way =>
    by_cases e : setIndex f.line = i
    · subst e
      rw [updSet_set]
      refine ⟨fun ⟨hw, _⟩ => ?_, fun off => ?_⟩
      · cases way.symm.trans hw
        exact drop_self _ w
      · exact drop_other _ v w fun e => off ⟨way.trans (congrArg some e), rfl⟩
    · rw [updSet_set_other _ _ _ _ e]
      exact ⟨fun binds => absurd binds.2 e, fun _ => rfl⟩

theorem releaseWay_fills (s : State) (f : Fill) : (s.releaseWay f).fills = s.fills := by
  unfold State.releaseWay
  split <;> rfl

/-- The way of an entry is FILLING, so no VALID way goes with it (R41). -/
theorem endEntry (h : FromFault s t) {f : Fill} (mem : f ∈ t.fills) :
    FromFault s ((t.releaseWay f).removeFill f.line) := by
  refine h.trans ⟨(congrArg Fsq.state (releaseWay_only t f).1).trans h.faulted,
    (releaseWay_moves mem).keeps_cacheOk h.cacheOk, ?_, fun i w valid => ?_⟩
  · rw [State.removeFill, releaseWay_fills]
    exact List.map_subset _ (List.filter_subset_self _)
  · have off : ¬ f.Binds i w := fun binds => by
      have filling := (boundOk_iff.mp h.cacheOk.2.1).1 f mem i w binds
      rw [filling] at valid
      cases valid
    have stands : (((t.releaseWay f).removeFill f.line).set i).ways[w] = (t.set i).ways[w] := (releaseWay_way t f i w).2 off
    rw [stands]
    exact ⟨valid, rfl⟩

/-- An entry that fails is gone with its line, and none comes in its place (R54). -/
theorem failFill (h : FromFault s t) (a : Nat) :
    FromFault s (t.failFill a) ∧ (t.failFill a).fills.map Fill.line ⊆ (t.fills.map Fill.line).filter (fun b => b ≠ a) := by
  unfold State.failFill
  split
  · next none =>
    refine ⟨h, fun b hb => List.mem_filter.mpr ⟨hb, ?_⟩⟩
    obtain ⟨f, hf, rfl⟩ := List.mem_map.mp hb
    simpa using List.find?_eq_none.mp none f hf
  · next f found =>
    obtain ⟨mem, rfl⟩ := fill_eq_some found
    have ended := h.endEntry mem
    have failed := ((FromFault.refl ended.faulted ended.cacheOk).foldl
      (fun _ w hu => hu.failWaiter w) f.waiters).afterEnd f.line
    refine ⟨ended.trans failed, List.Subset.trans failed.lines fun b hb => ?_⟩
    obtain ⟨g, hg, rfl⟩ := List.mem_map.mp hb
    rw [State.removeFill, releaseWay_fills, List.mem_filter] at hg
    exact List.mem_filter.mpr ⟨List.mem_map_of_mem hg.1, hg.2⟩

/-- Once each line of the table has failed, no entry is left. -/
theorem foldl_failFill (h : FromFault s t) {ls : List Nat} (cover : t.fills.map Fill.line ⊆ ls) :
    FromFault s (ls.foldl State.failFill t) ∧ (ls.foldl State.failFill t).fills = [] := by
  induction ls generalizing t with
  | nil => exact ⟨h, List.map_eq_nil_iff.mp (List.subset_nil.mp cover)⟩
  | cons a ls ih =>
    obtain ⟨failed, lines⟩ := h.failFill a
    refine ih failed fun b hb => ?_
    obtain ⟨old, ne⟩ := List.mem_filter.mp (lines hb)
    exact (List.mem_cons.mp (cover old)).resolve_left (by simpa using ne)

/-- At the entry to FAULTED every entry ends (R56). -/
theorem failFills (h : FromFault s t) : FromFault s t.failFills ∧ t.failFills.fills = [] :=
  ((h.foldl (fun _ w hu => hu.failIfWaiting .waitSlot w) _).foldl (fun _ w hu => hu.failIfWaiting .waitWay w) _).foldl_failFill
    (List.Subset.refl _)

end FromFault

end Sys2Proof.Machine
end

section
/-! PROOFS. The steps of the entry to FAULTED one by one (R140): what each leaves unchanged and what it places on a link. -/

namespace Sys2Proof.Machine

/-! ### The steps -/

/-- Step 1: FSQ is FAULTED, with its cause. -/
def State.faultEntered (s : State) (c : FaultCause) : State :=
  s.updFsq (fun q => { q with state := .faulted, cause := c, resetDue := false, wait := .none })

/-- Step 4: a pending profile is discarded, and its SET_PROFILE answered. -/
def State.failProfile (s : State) : State :=
  match s.fsq.pendingProfile with
  | none => s
  | some p => (s.updFsq (fun q => { q with pendingProfile := none })).answerProfile p .flashFault

/-- Steps 4 to 6: the SET_PROFILE and the RESET_FLASH requests are answered, and each OPEN link holds FLASH_STATE. -/
def State.faultAnswers (s : State) : State := (s.failProfile.answerResets .flashFault).giveFlashState

/-- Steps 1 and 2: in FAULTED every entry has ended. -/
def State.fillsFailed (s : State) (c : FaultCause) : State := (s.faultEntered c).failFills

/-- Steps 1 to 3: every job has ended as well. -/
def State.jobsFailed (s : State) (c : FaultCause) : State := endAllJobs s.jq.jobs (s.fillsFailed c)

theorem recoveryFaulted_eq (s : State) (c : FaultCause) : s.recoveryFaulted c = (s.jobsFailed c).faultAnswers := by
  have jobs : (s.fillsFailed c).jq = s.jq := (failFills_only (s.faultEntered c)).2.1
  unfold State.jobsFailed
  rw [← jobs]
  rfl

/-! ### Operations that place at most -/

/-- The state is as before but for the reply slots of the links. -/
structure OnlyPlaces (s t : State) : Prop where
  records : t.records = s.records
  cache : t.cache = s.cache
  fills : t.fills = s.fills
  jq : t.jq = s.jq
  staging : t.staging = s.staging
  fsq : t.fsq = s.fsq
  protection : t.protection = s.protection
  counters : t.counters = s.counters
  links : ∀ l, (t.link l).isOpen = (s.link l).isOpen ∧ (t.link l).session = (s.link l).session ∧
    (t.link l).holder = (s.link l).holder

namespace OnlyPlaces

variable {s t u : State}

theorem refl (s : State) : OnlyPlaces s s := ⟨rfl, rfl, rfl, rfl, rfl, rfl, rfl, rfl, fun _ => ⟨rfl, rfl, rfl⟩⟩

theorem trans (h : OnlyPlaces s t) (g : OnlyPlaces t u) : OnlyPlaces s u where
  records := g.records.trans h.records
  cache := g.cache.trans h.cache
  fills := g.fills.trans h.fills
  jq := g.jq.trans h.jq
  staging := g.staging.trans h.staging
  fsq := g.fsq.trans h.fsq
  protection := g.protection.trans h.protection
  counters := g.counters.trans h.counters
  links l :=
    have ⟨isOpen, session, holder⟩ := h.links l
    have ⟨isOpen', session', holder'⟩ := g.links l
    ⟨isOpen'.trans isOpen, session'.trans session, holder'.trans holder⟩

theorem place (s : State) (l : Link) (x : Byte) (m : Message) : OnlyPlaces s (s.place l x m) where
  records := place_records s l x m
  cache := place_cache s l x m
  fills := place_fills s l x m
  jq := place_jq s l x m
  staging := place_staging s l x m
  fsq := place_fsq s l x m
  protection := place_protection s l x m
  counters := place_counters s l x m
  links k := by
    by_cases e : k = l
    · subst e
      simp
    · rw [place_link_other _ _ _ _ _ e]
      exact ⟨rfl, rfl, rfl⟩

theorem answerProfile (s : State) (p : PendingProfile) (st : Status) : OnlyPlaces s (s.answerProfile p st) := by
  unfold State.answerProfile
  split
  · exact refl s
  · exact place ..

theorem notifyJob (s : State) (j : Job) (o : Status) : OnlyPlaces s (s.notifyJob j o) := by
  unfold State.notifyJob
  split
  · exact place ..
  · exact refl s

theorem answerReset (st : Status) (s : State) (q : ResetRequest) : OnlyPlaces s (answerReset st s q) := by
  unfold Machine.answerReset
  split
  · exact refl s
  · exact place ..

theorem answerEach (st : Status) (qs : List ResetRequest) (s : State) : OnlyPlaces s (qs.foldl (Machine.answerReset st) s) := by
  induction qs generalizing s with
  | nil => exact refl s
  | cons q qs ih => exact (answerReset st s q).trans (ih _)

end OnlyPlaces

theorem failProfile_places (s : State) :
    OnlyPlaces (s.updFsq (fun q => { q with pendingProfile := none })) s.failProfile := by
  unfold State.failProfile
  split
  · next idle =>
    have same : ({ s.fsq with pendingProfile := none } : Fsq) = s.fsq := by rw [← idle]
    have stands : s.updFsq (fun q => { q with pendingProfile := none }) = s := by rw [State.updFsq, same]
    rw [stands]
    exact .refl s
  · exact .answerProfile _ _ _

theorem answerResets_places (s : State) (st : Status) :
    OnlyPlaces (s.updFsq (fun q => { q with resetRequests := [] })) (s.answerResets st) := by
  have h := OnlyPlaces.answerEach st s.fsq.resetRequests s
  have fsq := congrArg (fun q : Fsq => { q with resetRequests := [] }) h.fsq
  exact ⟨h.records, h.cache, h.fills, h.jq, h.staging, fsq, h.protection, h.counters, h.links⟩

/-! ### FLASH_STATE -/

/-- Only the holders of OPEN links change (R144). -/
theorem giveFlashState_link (s : State) (l : Link) : s.giveFlashState.link l =
    if (s.link l).isOpen = true then { s.link l with holder := some (flashStateNotice s.fsq) } else s.link l := by
  unfold State.giveFlashState
  cases l <;> cases a : s.linkA.isOpen <;> cases b : s.linkB.isOpen <;> simp [State.link, State.giveNotice, a, b]

/-- What FLASH_STATE leaves unchanged beside the links. -/
theorem giveFlashState_frame (s : State) :
    s.giveFlashState.records = s.records ∧ s.giveFlashState.cache = s.cache ∧ s.giveFlashState.fills = s.fills ∧
    s.giveFlashState.jq = s.jq ∧ s.giveFlashState.staging = s.staging ∧ s.giveFlashState.fsq = s.fsq ∧
    s.giveFlashState.protection = s.protection ∧ s.giveFlashState.counters = s.counters := by
  unfold State.giveFlashState
  dsimp only
  split <;> split <;> simp

/-- Steps 4 to 6 of R140: what they leave unchanged, and what each link holds. -/
theorem faultAnswers_frame (s : State) :
    s.faultAnswers.records = s.records ∧ s.faultAnswers.cache = s.cache ∧ s.faultAnswers.fills = s.fills ∧
    s.faultAnswers.jq = s.jq ∧ s.faultAnswers.staging = s.staging ∧ s.faultAnswers.protection = s.protection ∧
    s.faultAnswers.counters = s.counters ∧
    s.faultAnswers.fsq = { s.fsq with pendingProfile := none, resetRequests := [] } ∧
    ∀ l, (s.faultAnswers.link l).isOpen = (s.link l).isOpen ∧ (s.faultAnswers.link l).holder =
      if (s.link l).isOpen = true then some (flashStateNotice s.faultAnswers.fsq) else (s.link l).holder := by
  have profile := failProfile_places s
  have resets := answerResets_places s.failProfile .flashFault
  obtain ⟨records, cache, fills, jq, staging, fsq, protection, counters⟩ :=
    giveFlashState_frame (s.failProfile.answerResets .flashFault)
  refine ⟨?_, ?_, ?_, ?_, ?_, ?_, ?_, ?_, fun l => ?_⟩
  · exact records.trans (resets.records.trans profile.records)
  · exact cache.trans (resets.cache.trans profile.cache)
  · exact fills.trans (resets.fills.trans profile.fills)
  · exact jq.trans (resets.jq.trans profile.jq)
  · exact staging.trans (resets.staging.trans profile.staging)
  · exact protection.trans (resets.protection.trans profile.protection)
  · exact counters.trans (resets.counters.trans profile.counters)
  · rw [State.faultAnswers, fsq, resets.fsq, updFsq_fsq, profile.fsq, updFsq_fsq]
  · have isOpen : ((s.failProfile.answerResets .flashFault).link l).isOpen = (s.link l).isOpen :=
      (resets.links l).1.trans (profile.links l).1
    have holder : ((s.failProfile.answerResets .flashFault).link l).holder = (s.link l).holder :=
      (resets.links l).2.2.trans (profile.links l).2.2
    have given := giveFlashState_link (s.failProfile.answerResets .flashFault) l
    rw [isOpen] at given
    rw [State.faultAnswers, fsq, given]
    split
    · exact ⟨isOpen, rfl⟩
    · exact ⟨isOpen, holder⟩

/-! ### The end of a job, once more -/

/-- The head job is off the queue, with its history entry and its count: steps 1 to 5 of R69. -/
def State.jobTaken (s : State) (j : Job) (js : List Job) (o : Status) : State :=
  { s with
    jq := { s.jq with jobs := js, history := appendHistory s.jq.history (j.entry o) }
    fsq := { s.fsq with burst := 0 }
    staging := (s.freeStaging j).staging
    counters := s.counters.countJob o }

/-- The head job has ended, before the re-examination: steps 1 to 6 of R69. -/
def State.jobEnded (s : State) (j : Job) (js : List Job) (o : Status) : State := (s.jobTaken j js o).notifyJob j o

/-- The end of a hold re-examines the PARKED records (R69, step 7). -/
theorem endJob_eq {s : State} {j : Job} {js : List Job} (h : s.jq.jobs = j :: js) (o : Status) :
    s.endJob 0 o = if j.range.isSome = true then (s.jobEnded j js o).reexamine else s.jobEnded j js o := by
  have notice : ∀ u : State, u.notifyJob { j with outcome := some o } o = u.notifyJob j o := fun _ => rfl
  unfold State.endJob
  simp only [h, List.getElem?_cons_zero, List.eraseIdx_cons_zero, if_true, Option.getD_some, notice]
  cases hs : j.staging <;> cases hr : j.range <;>
    simp [State.freeStaging, hs, State.updFsq, State.updCounters, State.jobEnded, State.jobTaken] <;> rfl

theorem jobEnded_places (s : State) (j : Job) (js : List Job) (o : Status) :
    OnlyPlaces (s.jobTaken j js o) (s.jobEnded j js o) := .notifyJob _ _ _

theorem reexamine_of_no_record {s : State} (h : s.records = []) : s.reexamine = s := by
  rw [State.reexamine, h]
  rfl

/-- With no record in use no record is released. -/
theorem endJob_of_no_record {s : State} {j : Job} {js : List Job} (h : s.jq.jobs = j :: js) (records : s.records = [])
    (o : Status) : s.endJob 0 o = s.jobEnded j js o := by
  rw [endJob_eq h, reexamine_of_no_record ((jobEnded_places s j js o).records.trans records), ite_self]

theorem freeStaging_staging (s : State) (j : Job) (b : Fin 4) :
    (s.freeStaging j).staging[b] = if j.staging = some b then none else s.staging[b] := by
  unfold State.freeStaging
  split
  · next free => simp [free]
  · next c held =>
    by_cases e : c = b
    · subst e
      simp [held]
    · have ne : (c : Nat) ≠ b := fun v => e (Fin.ext v)
      simp [held, e, ne]

/-- The buffers that the jobs hold are free (R61), and the links are as before but for their slots. -/
theorem endAllJobs_staging {js : List Job} {s : State} (h : s.jq.jobs = js) (b : Fin 4) :
    (endAllJobs js s).staging[b] = if ∃ j ∈ js, j.staging = some b then none else s.staging[b] := by
  induction js generalizing s with
  | nil => simp [endAllJobs]
  | cons j js ih =>
    obtain ⟨jq, -, staging, -⟩ := endJob_head h .flashFault
    rw [endAllJobs, ih (by rw [jq]), staging, freeStaging_staging]
    by_cases first : j.staging = some b <;> simp [first]

theorem endAllJobs_link {js : List Job} {s : State} (h : s.jq.jobs = js) (l : Link) :
    ((endAllJobs js s).link l).isOpen = (s.link l).isOpen ∧ ((endAllJobs js s).link l).holder = (s.link l).holder ∧
    ((endAllJobs js s).link l).session = (s.link l).session := by
  induction js generalizing s with
  | nil => exact ⟨rfl, rfl, rfl⟩
  | cons j js ih =>
    obtain ⟨jq, -, -, -, -, -, links⟩ := endJob_head h .flashFault
    obtain ⟨isOpen, holder, session⟩ := ih (s := s.endJob 0 .flashFault) (by rw [jq])
    obtain ⟨isOpen', holder', session'⟩ := links l
    exact ⟨isOpen.trans isOpen', holder.trans holder', session.trans session'⟩

namespace FromFault

variable {s t : State}

theorem endJob (h : FromFault s t) {j : Job} {js : List Job} (jobs : t.jq.jobs = j :: js) (o : Status) :
    FromFault s (t.endJob 0 o) := by
  have placed := jobEnded_places t j js o
  have ended : FromFault s (t.jobEnded j js o) :=
    h.next_same (CacheMoves.of_same placed.cache placed.fills) (by rw [placed.fsq, State.jobTaken])
      (by rw [placed.fills, State.jobTaken]) placed.cache
  rw [endJob_eq jobs]
  split
  · exact ended.reexamine
  · exact ended

theorem endAllJobs (h : FromFault s t) {js : List Job} (jobs : t.jq.jobs = js) : FromFault s (endAllJobs js t) := by
  induction js generalizing t with
  | nil => exact h
  | cons j js ih => exact ih (h.endJob jobs .flashFault) (by rw [(endJob_head jobs .flashFault).1])

end FromFault

end Sys2Proof.Machine
end

section
/-! PROOFS. What the entry to FAULTED places on a link, in the order of its steps (R140, R160). -/

namespace Sys2Proof.Machine

/-! ### Messages that a link gets -/

/-- A link that is OPEN with its reservations under its session and a slot for each of the messages gets them in this order. -/
def LinkState.Gets (k m : LinkState) (ms : List Message) : Prop :=
  k.isOpen = true → (∀ x ∈ k.reserved, x = k.session) → ms.length ≤ k.reserved.length →
    m.isOpen = true ∧ m.session = k.session ∧ (∀ x ∈ m.reserved, x = k.session) ∧ m.fifo = k.fifo ++ ms ∧
      m.reserved.length + ms.length = k.reserved.length

namespace LinkState.Gets

variable {k m n : LinkState} {ms ns : List Message}

theorem refl (k : LinkState) : k.Gets k [] := fun isOpen own _ => ⟨isOpen, rfl, own, by simp, rfl⟩

/-- Nothing is placed where only the holder of the state notice changes. -/
theorem of_slots (isOpen : m.isOpen = k.isOpen) (session : m.session = k.session) (reserved : m.reserved = k.reserved)
    (fifo : m.fifo = k.fifo) : k.Gets m [] := fun o own _ =>
  ⟨isOpen.trans o, session, by rwa [reserved], by simp [fifo], by simp [reserved]⟩

theorem trans (h : k.Gets m ms) (g : m.Gets n ns) : k.Gets n (ms ++ ns) := fun isOpen own room => by
  rw [List.length_append] at room
  obtain ⟨isOpen', session', own', fifo', count'⟩ := h isOpen own (by omega)
  obtain ⟨isOpen'', session'', own'', fifo'', count''⟩ := g isOpen' (by rwa [session']) (by omega)
  refine ⟨isOpen'', session''.trans session', by rwa [session'] at own'', by rw [fifo'', fifo', List.append_assoc], ?_⟩
  rw [List.length_append]
  omega

/-- A message under the link's session is placed in a slot (R160). -/
theorem place {x : Byte} (hx : x = k.session) (msg : Message) : k.Gets (k.place x msg) [msg] := fun isOpen own room => by
  subst hx
  have held : k.session ∈ k.reserved := by
    obtain ⟨y, ys, e⟩ := List.exists_cons_of_length_pos (l := k.reserved) room
    have mem : y ∈ k.reserved := e ▸ List.mem_cons_self
    exact own y mem ▸ mem
  have reserved : (k.place k.session msg).reserved = k.reserved.erase k.session := by rw [place_reserved, if_pos held]
  refine ⟨by simp [isOpen], by simp, ?_, by simp [place_fifo, held, isOpen], ?_⟩
  · rw [reserved]
    exact fun y hy => own y (List.mem_of_mem_erase hy)
  · rw [reserved]
    exact List.length_erase_add_one held

/-- One message of a list, and those of the list's rest. -/
theorem cons {α : Type} {p : α → Bool} {f : α → Message} {a : α} {as : List α} (h : k.Gets m (if p a = true then [f a] else []))
    (g : m.Gets n ((as.filter p).map f)) : k.Gets n (((a :: as).filter p).map f) := by
  have e : ((a :: as).filter p).map f = (if p a = true then [f a] else []) ++ (as.filter p).map f := by
    rw [List.filter_cons]
    split <;> rfl
  rw [e]
  exact h.trans g

end LinkState.Gets

/-- A message goes to its own link. -/
theorem place_gets (s : State) (k l : Link) (x : Byte) (m : Message) (hx : k = l → x = (s.link l).session) :
    (s.link l).Gets ((s.place k x m).link l) (if k = l then [m] else []) := by
  by_cases e : k = l
  · subst e
    rw [place_link, if_pos rfl]
    exact .place (hx rfl) m
  · rw [place_link_other _ _ _ _ _ (fun h => e h.symm), if_neg e]
    exact .refl _

/-- A message goes to its own link, if it is still to be given. -/
theorem placeIf_gets (s : State) (k l : Link) (x : Byte) (m : Message) (b : Bool)
    (hx : k = l → b = true → x = (s.link l).session) :
    (s.link l).Gets ((if b = true then s.place k x m else s).link l) (if (decide (k = l) && b) = true then [m] else []) := by
  cases b with
  | true => simpa using place_gets s k l x m fun e => hx e rfl
  | false => simpa using LinkState.Gets.refl _

/-! ### The replies and notices of the steps -/

/-- The messages of a list of things, each placed by one step. -/
theorem gets_foldl {α : Type} {f : State → α → State} {msg : α → Message} {l : Link} (p : α → Bool) (ok : α → Byte → Prop)
    (session : ∀ (s : State) (a : α), ((f s a).link l).session = (s.link l).session)
    (step : ∀ (s : State) (a : α), ok a (s.link l).session →
      (s.link l).Gets ((f s a).link l) (if p a = true then [msg a] else []))
    (as : List α) (s : State) (h : ∀ a ∈ as, ok a (s.link l).session) :
    (s.link l).Gets ((as.foldl f s).link l) ((as.filter p).map msg) := by
  induction as generalizing s with
  | nil => exact .refl _
  | cons a as ih =>
    refine .cons (step s a (h a List.mem_cons_self)) (ih (f s a) fun b hb => ?_)
    rw [session]
    exact h b (List.mem_cons_of_mem a hb)

theorem answerReset_gets (st : Status) (s : State) (q : ResetRequest) (l : Link)
    (hq : q.link = l → q.muted = false → q.session = (s.link l).session) :
    (s.link l).Gets ((answerReset st s q).link l)
      (if (decide (q.link = l) && !q.muted) = true then [replyMessage .resetFlash q.tag st []] else []) := by
  have placed : answerReset st s q =
      if (!q.muted) = true then s.place q.link q.session (replyMessage .resetFlash q.tag st []) else s := by
    unfold answerReset
    cases q.muted <;> rfl
  rw [placed]
  exact placeIf_gets _ _ _ _ _ _ fun e m => hq e (by simpa using m)

theorem answerResets_gets (st : Status) (s : State) (l : Link)
    (hq : ∀ q ∈ s.fsq.resetRequests, q.link = l → q.muted = false → q.session = (s.link l).session) :
    (s.link l).Gets ((s.answerResets st).link l)
      ((s.fsq.resetRequests.filter (fun q => q.link = l && !q.muted)).map
        (fun q => replyMessage .resetFlash q.tag st [])) :=
  gets_foldl (fun q : ResetRequest => decide (q.link = l) && !q.muted)
    (fun q x => q.link = l → q.muted = false → q.session = x) (fun s q => ((OnlyPlaces.answerReset st s q).links l).2.1)
    (fun s q => answerReset_gets st s q l) s.fsq.resetRequests s hq

theorem failProfile_gets (s : State) (l : Link)
    (hp : ∀ p ∈ s.fsq.pendingProfile.toList, p.link = l → p.muted = false → p.session = (s.link l).session) :
    (s.link l).Gets (s.failProfile.link l)
      ((s.fsq.pendingProfile.toList.filter (fun p => p.link = l && !p.muted)).map
        (fun p => replyMessage .setProfile p.tag .flashFault [])) := by
  unfold State.failProfile
  cases pending : s.fsq.pendingProfile with
  | none => exact .refl _
  | some p =>
    have placed : ∀ u : State, u.answerProfile p .flashFault =
        if (!p.muted) = true then u.place p.link p.session (replyMessage .setProfile p.tag .flashFault []) else u := by
      intro u
      unfold State.answerProfile
      cases p.muted <;> rfl
    refine .cons (as := []) ?_ (.refl _)
    dsimp only
    rw [placed]
    refine placeIf_gets (s.updFsq _) _ l _ _ (!p.muted) fun e unmuted => ?_
    exact hp p (by simp [pending]) e (by simpa using unmuted)

/-- Steps 4 to 6 of R140 on a link. -/
theorem faultAnswers_gets (s : State) (l : Link)
    (hp : ∀ p ∈ s.fsq.pendingProfile.toList, p.link = l → p.muted = false → p.session = (s.link l).session)
    (hq : ∀ q ∈ s.fsq.resetRequests, q.link = l → q.muted = false → q.session = (s.link l).session) :
    (s.link l).Gets (s.faultAnswers.link l)
      ((s.fsq.pendingProfile.toList.filter (fun p => p.link = l && !p.muted)).map
          (fun p => replyMessage .setProfile p.tag .flashFault []) ++
        (s.fsq.resetRequests.filter (fun q => q.link = l && !q.muted)).map
          (fun q => replyMessage .resetFlash q.tag .flashFault [])) := by
  have profile := failProfile_places s
  have requests : s.failProfile.fsq.resetRequests = s.fsq.resetRequests := by rw [profile.fsq]; rfl
  have resets := answerResets_gets .flashFault s.failProfile l
  rw [requests, (profile.links l).2.1] at resets
  have held : ((s.failProfile.answerResets .flashFault).link l).Gets (s.faultAnswers.link l) [] := by
    rw [State.faultAnswers, giveFlashState_link]
    split <;> exact .of_slots rfl rfl rfl rfl
  have all := ((failProfile_gets s l hp).trans (resets hq)).trans held
  rwa [List.append_nil] at all

theorem notifyJob_gets (s : State) (j : Job) (o : Status) (l : Link)
    (hj : j.origin = l → j.deliver = true → j.session = (s.link l).session) :
    (s.link l).Gets ((s.notifyJob j o).link l)
      (if (decide (j.origin = l) && j.deliver) = true then [jobDoneNotice j o] else []) :=
  placeIf_gets _ _ _ _ _ _ hj

theorem jobEnded_gets (s : State) (j : Job) (js : List Job) (o : Status) (l : Link)
    (hj : j.origin = l → j.deliver = true → j.session = (s.link l).session) :
    (s.link l).Gets ((s.jobEnded j js o).link l)
      (if (decide (j.origin = l) && j.deliver) = true then [jobDoneNotice j o] else []) :=
  notifyJob_gets (s.jobTaken j js o) j o l hj

/-! ### The jobs end where no record is in use -/

/-- The notices of the jobs, in queue order, and nothing else but the counts. -/
theorem endAllJobs_of_no_record {js : List Job} {s : State} (h : s.jq.jobs = js) (records : s.records = []) :
    (endAllJobs js s).records = [] ∧ (endAllJobs js s).cache = s.cache ∧
    (endAllJobs js s).counters =
      { s.counters with jobFailed := s.counters.jobFailed + BitVec.ofNat 32 js.length } ∧
    ∀ l, (∀ j ∈ js, j.origin = l → j.deliver = true → j.session = (s.link l).session) →
      (s.link l).Gets ((endAllJobs js s).link l)
        ((js.filter (fun j => j.origin = l && j.deliver)).map (fun j => jobDoneNotice j .flashFault)) := by
  induction js generalizing s with
  | nil => exact ⟨records, rfl, by simp [endAllJobs], fun _ _ => .refl _⟩
  | cons j js ih =>
    have placed := jobEnded_places s j js .flashFault
    obtain ⟨noRecord, cache, counters, gets⟩ := ih (s := s.jobEnded j js .flashFault) (by rw [placed.jq, State.jobTaken])
      (placed.records.trans records)
    have count : 1#32 + BitVec.ofNat 32 js.length = BitVec.ofNat 32 (j :: js).length := by
      rw [List.length_cons, Nat.add_comm, BitVec.ofNat_add]
    rw [endAllJobs, endJob_of_no_record h records]
    refine ⟨noRecord, cache.trans placed.cache, ?_, fun l hj => ?_⟩
    · rw [counters, placed.counters, ← count, ← BitVec.add_assoc]
      rfl
    · refine .cons (jobEnded_gets s j js .flashFault l (hj j List.mem_cons_self)) (gets l fun i hi => ?_)
      rw [(placed.links l).2.1]
      exact hj i (List.mem_cons_of_mem j hi)

end Sys2Proof.Machine
end

section
/-! PROOFS. The entries fail at the entry to FAULTED (R54, R56): with no need that waits, or with one need of one record. -/

namespace Sys2Proof.Machine

/-! ### The ways of entries that have ended -/

/-- The ways of the given entries are INVALID, and every other way is as before. -/
def WaysGone (s t : State) (fs : List Fill) : Prop := ∀ (i : Fin 128) (w : Fin 4),
  ((∃ f ∈ fs, f.Binds i w) → (t.set i).ways[w] = .invalid) ∧
  ((∀ f ∈ fs, ¬ f.Binds i w) → (t.set i).ways[w] = (s.set i).ways[w])

namespace WaysGone

variable {s t u : State} {fs gs : List Fill}

theorem of_ways (h : ∀ i : Fin 128, (t.set i).ways = (s.set i).ways) : WaysGone s t [] := fun i w =>
  ⟨fun ⟨_, mem, _⟩ => absurd mem List.not_mem_nil, fun _ => by rw [h]⟩

theorem trans (h : WaysGone s t fs) (g : WaysGone t u gs) : WaysGone s u (fs ++ gs) := fun i w => by
  refine ⟨fun ⟨f, mem, binds⟩ => ?_, fun off => ?_⟩
  · by_cases later : ∃ g ∈ gs, g.Binds i w
    · exact (g i w).1 later
    · have here : f ∈ fs := (List.mem_append.mp mem).resolve_right fun mem => later ⟨f, mem, binds⟩
      exact ((g i w).2 fun x hx binds => later ⟨x, hx, binds⟩).trans ((h i w).1 ⟨f, here, binds⟩)
  · have first := (h i w).2 fun x hx => off x (List.mem_append_left gs hx)
    have second := (g i w).2 fun x hx => off x (List.mem_append_right fs hx)
    exact second.trans first

theorem releaseWay (s : State) (f : Fill) : WaysGone s (s.releaseWay f) [f] := fun i w => by
  obtain ⟨bound, free⟩ := FromFault.releaseWay_way s f i w
  refine ⟨fun ⟨x, mem, binds⟩ => ?_, fun off => free (off f List.mem_cons_self)⟩
  cases List.mem_singleton.mp mem
  exact bound binds

/-- Once every entry has ended, no way is FILLING (R41). -/
theorem of_all (h : WaysGone s t s.fills) (hs : CacheOk s) (i : Fin 128) (w : Fin 4) : (t.set i).ways[w] =
    if (s.set i).ways[w].isFilling then .invalid else (s.set i).ways[w] := by
  obtain ⟨bound, filled⟩ := boundOk_iff.mp hs.2.1
  cases way : (s.set i).ways[w] with
  | filling tag => exact (h i w).1 (filled i w tag way)
  | _ =>
    refine ((h i w).2 fun f hf binds => ?_).trans way
    cases way.symm.trans (bound f hf i w binds)

/-- A VALID way stands. -/
theorem of_valid (h : WaysGone s t s.fills) (hs : CacheOk s) {i : Fin 128} {w : Fin 4}
    (valid : (t.set i).ways[w].isValid = true) : (t.set i).ways[w] = (s.set i).ways[w] := by
  have way := h.of_all hs i w
  split at way
  · rw [way] at valid
    cases valid
  · exact way

end WaysGone

/-! ### Entries that no need waits for -/

/-- No need waits for a slot or for a way. -/
def State.QueuesEmpty (s : State) : Prop := ∀ r ∈ s.records, NeedState.waitSlot ∉ r.needs ∧ NeedState.waitWay ∉ r.needs

theorem queuesEmpty_of_no_record {s : State} (h : s.records = []) : s.QueuesEmpty := fun r hr => by
  rw [h] at hr
  cases hr

theorem queuesEmpty_of_needs {s : State} {r : Record} {n : NeedState} (h : s.records = [r]) (needs : r.needs = [n])
    (other : n ≠ .waitSlot ∧ n ≠ .waitWay) : s.QueuesEmpty := fun q hq => by
  rw [h] at hq
  cases List.mem_singleton.mp hq
  simp [needs, other.1.symm, other.2.symm]

theorem afterEnd_of_queuesEmpty {s : State} (h : s.QueuesEmpty) (a : Nat) : s.afterEnd a = s :=
  afterEnd_of_idle (fun r hr => (h r hr).1) (fun r hr => (h r hr).2) a

theorem releaseWay_eq (s : State) (f : Fill) : ∃ cache, s.releaseWay f = { s with cache := cache } := by
  unfold State.releaseWay
  split
  · exact ⟨_, rfl⟩
  · exact ⟨_, rfl⟩

/-- The oldest entry fails: its way is released, it is removed, its waiters fail (R54). -/
theorem failFill_head {s : State} {f : Fill} {rest : List Fill} (fills : s.fills = f :: rest)
    (lines : (s.fills.map Fill.line).Nodup) : s.failFill f.line =
      (f.waiters.foldl State.failWaiter { s.releaseWay f with fills := rest }).afterEnd f.line := by
  have found : s.fill f.line = some f := by simp [State.fill, fills]
  rw [fills, List.map_cons, List.nodup_cons] at lines
  have others : ∀ g ∈ rest, g.line ≠ f.line := fun g hg e => lines.1 (e ▸ List.mem_map_of_mem hg)
  have removed : (s.releaseWay f).removeFill f.line = { s.releaseWay f with fills := rest } := by
    rw [State.removeFill, FromFault.releaseWay_fills, fills]
    simpa [List.filter_eq_self] using others
  rw [State.failFill, found]
  dsimp only
  rw [removed]

/-- Entries without a waiter end, the oldest first, and nothing else happens. -/
theorem foldl_failFill_unwaited {fs rest : List Fill} {s : State} (fills : s.fills = fs ++ rest)
    (lines : (s.fills.map Fill.line).Nodup) (empty : s.QueuesEmpty) (unwaited : ∀ f ∈ fs, f.waiters = []) :
    ∃ cache, (fs.map Fill.line).foldl State.failFill s = { s with cache := cache, fills := rest } ∧
      WaysGone s { s with cache := cache, fills := rest } fs := by
  induction fs generalizing s with
  | nil => exact ⟨s.cache, by rw [List.nil_append] at fills; rw [← fills]; rfl, .of_ways fun _ => rfl⟩
  | cons f fs ih =>
    obtain ⟨cache, released⟩ := releaseWay_eq s f
    have ended : s.failFill f.line = { s with cache := cache, fills := fs ++ rest } := by
      rw [failFill_head fills lines, unwaited f List.mem_cons_self, released]
      exact afterEnd_of_queuesEmpty (s := { s with cache := cache, fills := fs ++ rest }) empty f.line
    have gone : WaysGone s { s with cache := cache, fills := fs ++ rest } [f] := by
      have h := WaysGone.releaseWay s f
      rw [released] at h
      exact h
    rw [fills, List.cons_append, List.map_cons, List.nodup_cons] at lines
    obtain ⟨cache', all, gone'⟩ := ih (s := { s with cache := cache, fills := fs ++ rest }) rfl lines.2 empty
      fun g hg => unwaited g (List.mem_cons_of_mem f hg)
    exact ⟨cache', by rw [List.map_cons, List.foldl_cons, ended, all], gone.trans gone'⟩

/-- With no need in a queue the entries alone fail. -/
theorem failFills_of_queuesEmpty {s : State} (h : s.QueuesEmpty) :
    s.failFills = (s.fills.map Fill.line).foldl State.failFill s := by
  unfold State.failFills
  rw [slotQueue_eq_nil fun r hr => (h r hr).1]
  dsimp only [List.foldl_nil]
  rw [needsIn_eq_nil fun r hr => (h r hr).2]
  rfl

/-- With no need that waits for an entry either, the entries end and nothing else happens. -/
theorem failFills_unwaited {s : State} (lines : (s.fills.map Fill.line).Nodup) (empty : s.QueuesEmpty)
    (unwaited : ∀ f ∈ s.fills, f.waiters = []) :
    ∃ cache, s.failFills = { s with cache := cache, fills := [] } ∧
      WaysGone s { s with cache := cache, fills := [] } s.fills := by
  rw [failFills_of_queuesEmpty empty]
  exact foldl_failFill_unwaited (List.append_nil _).symm lines empty unwaited

/-! ### The one need that waits -/

/-- Every record has failed and is answered, with the ways of the given entries gone; nothing is counted. -/
structure RecordsFailed (s t : State) (fs : List Fill) : Prop where
  records : t.records = []
  counters : t.counters = s.counters
  ways : WaysGone s t fs
  links : ∀ l, (∀ r ∈ s.records, r.link = l → r.session = (s.link l).session) →
    (s.link l).Gets (t.link l) ((s.records.filter (fun r => r.link = l)).map Record.faultReply)

namespace RecordsFailed

variable {s t u : State} {fs gs : List Fill}

/-- First entries end. -/
theorem after (h : RecordsFailed t u gs) (ways : WaysGone s t fs) (records : t.records = s.records)
    (counters : t.counters = s.counters) (links : ∀ l, t.link l = s.link l) : RecordsFailed s u (fs ++ gs) where
  records := h.records
  counters := h.counters.trans counters
  ways := ways.trans h.ways
  links l hr := by
    have gets := h.links l
    rw [records, links l] at gets
    exact gets hr

/-- Then entries end. -/
theorem before (h : RecordsFailed s t fs) (ways : WaysGone t u gs) (records : u.records = t.records)
    (counters : u.counters = t.counters) (links : ∀ l, u.link l = t.link l) : RecordsFailed s u (fs ++ gs) where
  records := records.trans h.records
  counters := counters.trans h.counters
  ways := h.ways.trans ways
  links l hr := by
    rw [links l]
    exact h.links l hr

/-- The one record fails and is answered. -/
theorem failWaiter {r : Record} (h : s.records = [r]) {n : NeedState} (needs : r.needs = [n])
    (unwaited : ∀ f ∈ s.fills, ∀ w ∈ f.waiters, w.id ≠ r.id) : 
    RecordsFailed s (s.failWaiter ⟨r.id, 0⟩) [] ∧ (s.failWaiter ⟨r.id, 0⟩).fills = s.fills := by
  have last : s.HasLast [] r := ⟨h, fun q hq => absurd hq List.not_mem_nil⟩
  have answered : s.failWaiter ⟨r.id, 0⟩ =
      ({ s.unclaimed r with records := [] } : State).place r.link r.session r.faultReply :=
    failNeed_answered last needs unwaited
  have link : ∀ l, (s.unclaimed r).link l = s.link l := fun l => by
    unfold State.unclaimed
    split <;> rfl
  have ways : ∀ i, ((s.unclaimed r).set i).ways = (s.set i).ways := fun i => by
    unfold State.unclaimed
    split
    · rfl
    · exact FromFault.dropClaim_ways _ _ i
  have counters : (s.unclaimed r).counters = s.counters := by
    unfold State.unclaimed
    split <;> rfl
  rw [answered]
  refine ⟨⟨place_records _ _ _ _, (place_counters _ _ _ _).trans counters, .of_ways fun i => ?_, fun l hr => ?_⟩,
    (place_fills _ _ _ _).trans (unclaimed_fills s r)⟩
  · rw [place_set]
    exact ways i
  · have placed := place_gets ({ s.unclaimed r with records := [] } : State) r.link l r.session r.faultReply
    rw [show ({ s.unclaimed r with records := [] } : State).link l = s.link l from link l] at placed
    rw [h]
    refine .cons (as := []) ?_ (.refl _)
    simpa using placed (hr r (h ▸ List.mem_cons_self))

end RecordsFailed

/-- The rest of the entries, once no record is in use. -/
theorem RecordsFailed.foldl_failFill {s t : State} {fs gs : List Fill} (h : RecordsFailed s t fs) (fills : t.fills = gs)
    (lines : (t.fills.map Fill.line).Nodup) (unwaited : ∀ f ∈ gs, f.waiters = []) :
    RecordsFailed s ((gs.map Fill.line).foldl State.failFill t) (fs ++ gs) := by
  obtain ⟨cache, all, gone⟩ := foldl_failFill_unwaited (fills.trans (List.append_nil gs).symm) lines
    (queuesEmpty_of_no_record h.records) unwaited
  rw [all]
  exact h.before gone rfl rfl fun _ => rfl

/-- One entry with one waiter, and none with another. -/
theorem one_waiter {fs : List Fill} {w : Waiter} (h : fs.flatMap Fill.waiters = [w]) :
    ∃ before f after, fs = before ++ f :: after ∧ f.waiters = [w] ∧ (∀ g ∈ before, g.waiters = []) ∧
      ∀ g ∈ after, g.waiters = [] := by
  induction fs with
  | nil => cases h
  | cons f fs ih =>
    rw [List.flatMap_cons] at h
    rcases List.append_eq_singleton_iff.mp h with ⟨idle, rest⟩ | ⟨waits, rest⟩
    · obtain ⟨before, g, after, rfl, waits, first, last⟩ := ih rest
      exact ⟨f :: before, g, after, rfl, waits, List.forall_mem_cons.mpr ⟨idle, first⟩, last⟩
    · exact ⟨[], f, fs, rfl, waits, fun _ mem => absurd mem List.not_mem_nil, List.flatMap_eq_nil_iff.mp rest⟩

/-- The one need waits for the arrival of an entry: the entries before it end, it ends, then the others. -/
theorem failFills_arrival {s : State} {r : Record} (h : s.records = [r]) (needs : r.needs = [.waitFill])
    (lines : (s.fills.map Fill.line).Nodup) (waiters : s.fills.flatMap Fill.waiters = [⟨r.id, 0⟩]) :
    RecordsFailed s s.failFills s.fills := by
  have empty : s.QueuesEmpty := queuesEmpty_of_needs h needs ⟨by decide, by decide⟩
  obtain ⟨before, f, after, fills, waits, first, last⟩ := one_waiter waiters
  obtain ⟨cache, ended, gone⟩ := foldl_failFill_unwaited (rest := f :: after) fills lines empty first
  rw [failFills_of_queuesEmpty empty, fills, List.map_append, List.foldl_append, ended, List.map_cons, List.foldl_cons]
  rw [fills, List.map_append] at lines
  have lines' : ((f :: after).map Fill.line).Nodup := (List.nodup_append.mp lines).2.1
  rw [failFill_head rfl lines', waits, List.foldl_cons, List.foldl_nil]
  have released := WaysGone.releaseWay { s with cache := cache, fills := f :: after } f
  obtain ⟨cache', way⟩ := releaseWay_eq { s with cache := cache, fills := f :: after } f
  rw [way] at released ⊢
  obtain ⟨failed, same⟩ := RecordsFailed.failWaiter (s := { s with cache := cache', fills := after }) h needs
    fun g hg w hw => by rw [last g hg] at hw; cases hw
  rw [afterEnd_of_queuesEmpty (queuesEmpty_of_no_record failed.records)]
  have rest := failed.foldl_failFill same (by rw [same]; exact (List.nodup_cons.mp lines').2) last
  exact (rest.after (t := { s with cache := cache', fills := after }) released rfl rfl fun _ => rfl).after gone rfl rfl
    fun _ => rfl

/-- The one need waits for a slot or a way: it fails first, then the entries end. -/
theorem failFills_queued {s : State} {r : Record} (h : s.records = [r])
    (needs : r.needs = [.waitSlot] ∨ r.needs = [.waitWay]) (lines : (s.fills.map Fill.line).Nodup)
    (unwaited : ∀ f ∈ s.fills, f.waiters = []) : RecordsFailed s s.failFills s.fills := by
  have answer : ∀ n, r.needs = [n] → s.failIfWaiting n ⟨r.id, 0⟩ = s.failWaiter ⟨r.id, 0⟩ := fun n hn =>
    if_pos (needIs_of_last (rs := []) ⟨h, fun _ mem => absurd mem List.not_mem_nil⟩ hn)
  have free : ∀ f ∈ s.fills, ∀ w ∈ f.waiters, w.id ≠ r.id := fun f hf w hw => by rw [unwaited f hf] at hw; cases hw
  have failed : ∃ n, r.needs = [n] ∧ s.failFills =
      ((s.failWaiter ⟨r.id, 0⟩).fills.map Fill.line).foldl State.failFill (s.failWaiter ⟨r.id, 0⟩) := by
    rcases needs with slot | way
    · obtain ⟨done, -⟩ := RecordsFailed.failWaiter h slot free
      refine ⟨_, slot, ?_⟩
      unfold State.failFills
      rw [State.slotQueue, needsIn_single h slot, List.foldl_cons, List.foldl_nil, answer _ slot]
      dsimp only
      rw [needsIn_eq_nil fun q hq => (queuesEmpty_of_no_record done.records q hq).2]
      rfl
    · refine ⟨_, way, ?_⟩
      unfold State.failFills
      rw [slotQueue_eq_nil fun q hq => by rw [h] at hq; cases List.mem_singleton.mp hq; simp [way]]
      dsimp only [List.foldl_nil]
      rw [needsIn_single h way, List.foldl_cons, List.foldl_nil, answer _ way]
  obtain ⟨n, hn, all⟩ := failed
  obtain ⟨done, same⟩ := RecordsFailed.failWaiter h hn free
  rw [all, same]
  exact done.foldl_failFill same (by rw [same]; exact lines) unwaited

/-- With no record or one need that waits, every record fails and every entry ends. -/
theorem failFills_oneNeed {s : State} (lines : (s.fills.map Fill.line).Nodup) (waits : s.oneNeedWaits) :
    RecordsFailed s s.failFills s.fills := by
  rcases waits with ⟨records, unwaited⟩ | ⟨r, -, records, -, ⟨needs, waiters⟩ | ⟨needs, unwaited⟩⟩
  · obtain ⟨cache, all, gone⟩ := failFills_unwaited lines (queuesEmpty_of_no_record records) unwaited
    rw [all]
    refine ⟨records, rfl, gone, fun l _ => ?_⟩
    rw [records]
    exact .refl _
  · exact failFills_arrival records needs lines waiters
  · exact failFills_queued records needs lines unwaited

end Sys2Proof.Machine
end

section
/-! PROOFS. FSQ has entered FAULTED: what has become of entries, jobs, records and requests (R140). -/

namespace Sys2Proof.Machine

/-! ### What stands after each entry to FAULTED -/

section Ends

variable (s : State) (c : FaultCause)

theorem fillsFailed_jq : (s.fillsFailed c).jq = s.jq := (failFills_only (s.faultEntered c)).2.1

theorem fillsFailed_link (l : Link) : ((s.fillsFailed c).link l).isOpen = (s.link l).isOpen ∧
    ((s.fillsFailed c).link l).holder = (s.link l).holder ∧ ((s.fillsFailed c).link l).session = (s.link l).session := by
  obtain ⟨-, -, -, -, -, -, -, -, -, -, linkA, linkB⟩ := failFills_only (s.faultEntered c)
  cases l
  · exact SameButSlots_fields linkA
  · exact SameButSlots_fields linkB

/-- After step 3 of R140: FSQ, the queue, the buffers, the counts of jobs and the links but for their slots. -/
theorem jobsFailed_frame :
    (s.jobsFailed c).fsq = { s.fsq with
      state := .faulted, cause := c, resetDue := false, wait := .none
      burst := if s.jq.jobs = [] then s.fsq.burst else 0 } ∧
    (s.jobsFailed c).jq = { s.jq with
      jobs := [], history := s.jq.jobs.foldl (fun h j => appendHistory h (j.entry .flashFault)) s.jq.history } ∧
    (∀ b : Fin 4, (s.jobsFailed c).staging[b] = if ∃ j ∈ s.jq.jobs, j.staging = some b then none else s.staging[b]) ∧
    (s.jobsFailed c).protection = s.protection ∧
    (s.jobsFailed c).counters.jobOk = s.counters.jobOk ∧
    (s.jobsFailed c).counters.jobFailed = s.counters.jobFailed + BitVec.ofNat 32 s.jq.jobs.length ∧
    ∀ l, ((s.jobsFailed c).link l).isOpen = (s.link l).isOpen ∧
      ((s.jobsFailed c).link l).holder = (s.link l).holder ∧
      ((s.jobsFailed c).link l).session = (s.link l).session := by
  obtain ⟨fsq, jq, staging, protection, -, -, -, -, jobOk, jobFailed, -⟩ := failFills_only (s.faultEntered c)
  have jobs : (s.fillsFailed c).jq.jobs = s.jq.jobs := congrArg JobQueue.jobs jq
  obtain ⟨jq', fsq', protection', jobOk', jobFailed'⟩ := endAllJobs_ends s.jq.jobs (s.fillsFailed c) jobs
  refine ⟨fsq'.trans ?_, jq'.trans ?_, fun b => ?_, protection'.trans protection, jobOk'.trans jobOk, ?_, fun l => ?_⟩
  · rw [State.fillsFailed, fsq]
    rfl
  · rw [fillsFailed_jq]
  · rw [State.jobsFailed, endAllJobs_staging jobs, State.fillsFailed, staging]
    rfl
  · rw [State.jobsFailed, jobFailed', State.fillsFailed, jobFailed]
    rfl
  · obtain ⟨isOpen, holder, session⟩ := endAllJobs_link jobs l
    obtain ⟨isOpen', holder', session'⟩ := fillsFailed_link s c l
    exact ⟨isOpen.trans isOpen', holder.trans holder', session.trans session'⟩

variable {s}

/-- No entry is left, no way is FILLING, and every VALID way stands. -/
theorem recoveryFaulted_cache (hs : CacheOk s) :
    (s.recoveryFaulted c).fills = [] ∧ ∀ (i : Fin 128) (w : Fin 4),
      ((s.recoveryFaulted c).set i).ways[w].isFilling = false ∧
      (s.set i).ways[w].StaysValid ((s.recoveryFaulted c).set i).ways[w] := by
  obtain ⟨failed, noFill⟩ := (FromFault.refl (s := s.faultEntered c) rfl hs).failFills
  have ended := (FromFault.refl failed.faulted failed.cacheOk).endAllJobs (fillsFailed_jq s c ▸ rfl : _ = s.jq.jobs)
  have lines : (s.jobsFailed c).fills = [] :=
    List.map_eq_nil_iff.mp (List.subset_nil.mp (List.Subset.trans ended.lines (by rw [noFill]; exact List.Subset.refl _)))
  obtain ⟨-, cache, fills, -⟩ := faultAnswers_frame (s.jobsFailed c)
  rw [recoveryFaulted_eq]
  refine ⟨fills.trans lines, fun i w => ?_⟩
  rw [set_eq_of_cache cache]
  refine ⟨?_, (failed.trans ended).ways i w⟩
  cases way : ((s.jobsFailed c).set i).ways[w] with
  | filling tag =>
    obtain ⟨f, mem, -⟩ := (boundOk_iff.mp ended.cacheOk.2.1).2 i w tag way
    have left : f ∈ (s.jobsFailed c).fills := mem
    rw [lines] at left
    cases left
  | _ => rfl

end Ends

/-! ### One need waits -/

section OneNeed

variable {s : State} (c : FaultCause) (hs : CacheOk s) (waits : s.oneNeedWaits)
include hs waits

theorem fillsFailed_oneNeed : RecordsFailed s (s.fillsFailed c) s.fills := by
  obtain ⟨records, counters, ways, links⟩ := failFills_oneNeed (s := s.faultEntered c) hs.2.2.1 waits
  exact ⟨records, counters, ways, links⟩

/-- Every record is answered: none is left, no lookup is counted, and only ways that were FILLING are INVALID. -/
theorem recoveryFaulted_oneNeed :
    (s.recoveryFaulted c).records = [] ∧
    (s.recoveryFaulted c).counters = { s.counters with
      jobFailed := s.counters.jobFailed + BitVec.ofNat 32 s.jq.jobs.length } ∧
    ∀ (i : Fin 128) (w : Fin 4), ((s.recoveryFaulted c).set i).ways[w] =
      if (s.set i).ways[w].isFilling then .invalid else (s.set i).ways[w] := by
  have failed := fillsFailed_oneNeed c hs waits
  obtain ⟨records, cache, counters, -⟩ := endAllJobs_of_no_record (fillsFailed_jq s c ▸ rfl : _ = s.jq.jobs) failed.records
  obtain ⟨records', cache', -, -, -, -, counters', -⟩ := faultAnswers_frame (s.jobsFailed c)
  rw [recoveryFaulted_eq]
  refine ⟨records'.trans records, counters'.trans (counters.trans (by rw [failed.counters])), fun i w => ?_⟩
  rw [set_eq_of_cache (cache'.trans cache)]
  exact failed.ways.of_all hs i w

/-- A link that is OPEN, with a slot for each of its messages, gets them all, in the order of R140. -/
theorem recoveryFaulted_gets {l : Link} (ready : s.faultSlotsReady l) :
    ((s.recoveryFaulted c).link l).fifo = (s.link l).fifo ++ s.faultMessages l ∧
    ((s.recoveryFaulted c).link l).reserved.length + (s.faultMessages l).length = (s.link l).reserved.length := by
  obtain ⟨isOpen, own, room, hr, hj, hp, hq⟩ := ready
  have failed := fillsFailed_oneNeed c hs waits
  obtain ⟨-, -, -, jobs⟩ := endAllJobs_of_no_record (fillsFailed_jq s c ▸ rfl : _ = s.jq.jobs) failed.records
  have notices := jobs l
  rw [(fillsFailed_link s c l).2.2] at notices
  obtain ⟨fsq, -, -, -, -, -, links⟩ := jobsFailed_frame s c
  have answers := faultAnswers_gets (s.jobsFailed c) l
  rw [fsq, (links l).2.2] at answers
  have all := ((failed.links l hr).trans (notices hj)).trans (answers hp hq)
  rw [← List.append_assoc, ← recoveryFaulted_eq] at all
  obtain ⟨-, -, -, fifo, count⟩ := all isOpen own room
  exact ⟨fifo, count⟩

end OneNeed

/-! ### A READ is PARKED -/

/-- A set that has lost ways misses what it has missed. -/
theorem hit_none_of_ways {x y : CacheSet} {tag : Nat} (miss : x.hit tag = none)
    (ways : ∀ w : Fin 4, y.ways[w].isValid = true → y.ways[w] = x.ways[w]) : y.hit tag = none :=
  List.find?_eq_none.mpr fun w _ holds => by
    obtain ⟨valid, same⟩ : y.ways[w].isValid = true ∧ y.ways[w].tag = tag := by simpa [CacheSet.holds] using holds
    have stands := ways w valid
    exact hit_eq_none miss w (stands ▸ valid) (stands ▸ same)

/-- The one need of a READ is looked up, misses in FAULTED, and the READ is answered (R36, R38). -/
theorem lookup_answered {s : State} {r : Record} (records : s.records = [r]) (kind : r.kind = .read) {n : NeedState}
    (needs : r.needs = [n]) (down : s.fsq.state = .faulted) (fills : s.fills = [])
    (miss : (s.set (setIndex r.base)).hit (cacheTag r.base) = none) : (s.lookup ⟨r.id, 0⟩).settle r.id =
      ({ s.countMiss with records := [] } : State).place r.link r.session r.faultReply := by
  have last : s.HasLast [] r := ⟨records, fun _ mem => absurd mem List.not_mem_nil⟩
  have unwaited : ∀ f ∈ s.countMiss.fills, ∀ w ∈ f.waiters, w.id ≠ r.id := fun f hf => by
    rw [show s.countMiss.fills = [] from fills] at hf
    cases hf
  have unclaimed : s.countMiss.unclaimed r = s.countMiss := by rw [State.unclaimed, kind]
  rw [lookup_miss last (by rwa [setIndex_lineOf_zero rfl, cacheTag_lineOf_zero rfl]), missNeed_fails _ _ down,
    failNeed_answered (last.of_records (t := s.countMiss) rfl) needs unwaited, unclaimed]

section Parked

variable {s : State} {r : Record} (records : s.records = [r]) (parked : r.state = .parked) (kind : r.kind = .read)
  (needs : r.needs = [.waitRelease])
include records parked kind needs

/-- A record that alone is PARKED is released once no job is left, and fails on a miss in FAULTED. -/
theorem reexamine_parked (jobs : s.jq.jobs = []) (down : s.fsq.state = .faulted) (fills : s.fills = [])
    (miss : (s.set (setIndex r.base)).hit (cacheTag r.base) = none) :
    s.reexamine = ({ s.countMiss with records := [] } : State).place r.link r.session r.faultReply := by
  have last : s.HasLast [] r := ⟨records, fun _ mem => absurd mem List.not_mem_nil⟩
  have free : s.overlapsHold r.range = false := by simp [State.overlapsHold, State.holds, jobs]
  have only : s.reexamine = s.release r.id := by
    simp [State.reexamine, records, parked, State.reexamineOne, record_of_last last, free]
  have index : r.indexed .waitRelease = [0] := by simp [Record.indexed, needs]
  rw [only, State.release, record_of_last last]
  dsimp only
  rw [updRecord_of_last last, index, State.lookups, List.foldl_cons, List.foldl_nil]
  exact lookup_answered (s := { s with records := [{ r with state := .active }] }) (r := { r with state := .active }) rfl
    kind needs down fills miss

variable (c : FaultCause) (hs : CacheOk s) {j : Job} (jobs : s.jq.jobs = [j]) (unwaited : ∀ f ∈ s.fills, f.waiters = [])
  (held : s.overlapsHold r.range = true) (miss : (s.set (setIndex r.base)).hit (cacheTag r.base) = none)
include hs jobs unwaited held miss

/-- The entries end, the job ends, and the READ is released at the end of its hold and answered. -/
theorem jobsFailed_parked : ∃ u : State, u.counters.lookupMiss = s.counters.lookupMiss ∧
    (∀ l, (j.origin = l → j.deliver = true → j.session = (s.link l).session) → (s.link l).Gets (u.link l)
      (if (decide (j.origin = l) && j.deliver) = true then [jobDoneNotice j .flashFault] else [])) ∧
    s.jobsFailed c = ({ u.countMiss with records := [] } : State).place r.link r.session r.faultReply := by
  have empty : s.QueuesEmpty := queuesEmpty_of_needs records needs ⟨by decide, by decide⟩
  obtain ⟨cache, ended, gone⟩ := failFills_unwaited (s := s.faultEntered c) hs.2.2.1 empty unwaited
  have range : j.range.isSome = true := by
    cases range : j.range with
    | some => rfl
    | none => simp [State.overlapsHold, State.holds, jobs, range] at held
  have last : ({ s.faultEntered c with cache := cache, fills := [] } : State).jq.jobs = [j] := jobs
  have placed := jobEnded_places { s.faultEntered c with cache := cache, fills := [] } j [] .flashFault
  have still : ((({ s.faultEntered c with cache := cache, fills := [] } : State).jobEnded j [] .flashFault).set
      (setIndex r.base)).hit (cacheTag r.base) = none := by
    rw [set_eq_of_cache placed.cache]
    exact hit_none_of_ways miss fun w valid => gone.of_valid hs valid
  refine ⟨({ s.faultEntered c with cache := cache, fills := [] } : State).jobEnded j [] .flashFault, ?_, fun l hj => ?_, ?_⟩
  · rw [placed.counters]
    rfl
  · exact jobEnded_gets { s.faultEntered c with cache := cache, fills := [] } j [] .flashFault l hj
  · rw [State.jobsFailed, State.fillsFailed, ended, jobs, endAllJobs, endAllJobs, endJob_eq last, if_pos range]
    exact reexamine_parked (placed.records.trans records) parked kind needs (congrArg JobQueue.jobs placed.jq)
      (congrArg Fsq.state placed.fsq) placed.fills still

/-- The READ is answered after the job's notice, and its lookup is counted as a miss. -/
theorem recoveryFaulted_parked :
    (s.recoveryFaulted c).records = [] ∧ (s.recoveryFaulted c).counters.lookupMiss = s.counters.lookupMiss + 1 ∧
    (s.faultSlotsReady r.link → s.fsq.pendingProfile = none → s.fsq.resetRequests = [] →
      ((s.recoveryFaulted c).link r.link).fifo = (s.link r.link).fifo ++
        (if j.origin = r.link ∧ j.deliver = true then [jobDoneNotice j .flashFault] else []) ++ [r.faultReply]) := by
  obtain ⟨u, lookups, gets, failed⟩ := jobsFailed_parked records parked kind needs c hs jobs unwaited held miss
  obtain ⟨fsq, -, -, -, -, -, links⟩ := jobsFailed_frame s c
  obtain ⟨records', -, -, -, -, -, counters', -⟩ := faultAnswers_frame (s.jobsFailed c)
  rw [recoveryFaulted_eq]
  refine ⟨?_, ?_, fun ⟨isOpen, own, room, hr, hj, hp, hq⟩ profile resets => ?_⟩
  · rw [records', failed, place_records]
  · rw [counters', failed, place_counters, ← lookups]
    rfl
  · have first := gets r.link (hj j (by rw [jobs]; exact List.mem_cons_self))
    have session : (u.link r.link).session = (s.link r.link).session := by
      have same := (links r.link).2.2
      rw [failed, place_link, place_session] at same
      exact same
    have second := place_gets ({ u.countMiss with records := [] } : State) r.link r.link r.session r.faultReply fun _ =>
      (hr r (by rw [records]; exact List.mem_cons_self) rfl).trans session.symm
    have third := faultAnswers_gets (s.jobsFailed c) r.link
    rw [fsq, (links r.link).2.2, failed] at third
    have all := (first.trans second).trans (third hp hq)
    have count : (s.faultMessages r.link).length = ((if (decide (j.origin = r.link) && j.deliver) = true then
        [jobDoneNotice j .flashFault] else []) ++ [r.faultReply]).length := by
      simp only [State.faultMessages, records, jobs, profile, resets]
      cases on : decide (j.origin = r.link) && j.deliver <;> simp [on]
    rw [← failed] at all
    simp only [profile, resets, if_true, Option.toList_none, List.filter_nil, List.map_nil, List.append_nil] at all
    obtain ⟨-, -, -, fifo, -⟩ := all isOpen own (by rwa [← count])
    rw [fifo, List.append_assoc]
    simp only [Bool.and_eq_true, decide_eq_true_eq]

end Parked

/-! ### FAULTED -/

/-- R140 for a state with no transaction in progress. -/
theorem recoveryFaulted_now {s : State} (c : FaultCause) (hs : CacheOk s) (port : s.fsq.port = none) :
    FaultedNow c s.fsq.flashId s (s.recoveryFaulted c) := by
  obtain ⟨fsq, jq, staging, protection, jobOk, jobFailed, links⟩ := jobsFailed_frame s c
  obtain ⟨-, -, -, jq', staging', protection', counters', fsq', links'⟩ := faultAnswers_frame (s.jobsFailed c)
  obtain ⟨noFill, ways⟩ := recoveryFaulted_cache c hs
  rw [← recoveryFaulted_eq] at jq' staging' protection' counters' fsq' links'
  rw [fsq] at fsq'
  rw [jq] at jq'
  refine ⟨by rw [fsq'], by rw [fsq'], by rw [fsq'], by rw [fsq'], by rw [fsq', ← port], by rw [fsq'], by rw [fsq'], noFill,
    ways, by rw [jq'], by rw [jq'], by rw [jq'], by rw [counters', jobFailed], by rw [counters', jobOk], by rw [fsq'],
    fun b => by rw [staging', staging], by rw [fsq'], by rw [fsq'], protection'.trans protection, fun l => ?_,
    fun waits => ?_, fun r records j jobs unwaited parked kind needs held miss => ?_⟩
  · obtain ⟨isOpen, holder, -⟩ := links l
    have given := links' l
    rw [isOpen, holder] at given
    exact given
  · obtain ⟨records, counters, filled⟩ := recoveryFaulted_oneNeed c hs waits
    exact ⟨records, counters, filled, fun l => recoveryFaulted_gets c hs waits⟩
  · exact recoveryFaulted_parked records parked kind needs c hs jobs unwaited held miss

end Sys2Proof.Machine
end

section
/-! PROOFS. The four ways from RECOVERING to FAULTED end everything (R136, R137, R140). -/

namespace Sys2Proof.Machine

/-! ### Time passes in a recovery wait -/

/-- Time has passed in a recovery wait: only timers of FSQ and of link B's reception have advanced. -/
structure TimersOnly (s u : State) : Prop where
  records : u.records = s.records
  cache : u.cache = s.cache
  fills : u.fills = s.fills
  jq : u.jq = s.jq
  staging : u.staging = s.staging
  protection : u.protection = s.protection
  counters : u.counters = s.counters
  fsq : u.fsq.active = s.fsq.active ∧ u.fsq.flashId = s.fsq.flashId ∧ u.fsq.burst = s.fsq.burst ∧
    u.fsq.pendingProfile = s.fsq.pendingProfile ∧ u.fsq.resetRequests = s.fsq.resetRequests
  links : ∀ l, (u.link l).isOpen = (s.link l).isOpen ∧ (u.link l).session = (s.link l).session ∧
    (u.link l).holder = (s.link l).holder ∧ (u.link l).reserved = (s.link l).reserved ∧ (u.link l).fifo = (s.link l).fifo

/-- No transaction and no poll runs, so the busy time stands. -/
theorem advance_timersOnly {s : State} (wait : s.fsq.wait = .recovery) (port : s.fsq.port = none) (n : Nat) :
    TimersOnly s (s.advance n) := by
  have still : s.busyGrowth n = 0 := by simp [State.busyGrowth, State.busyGrows, wait, State.portIs, port]
  refine ⟨rfl, rfl, rfl, ?_, rfl, rfl, rfl, ⟨rfl, rfl, rfl, rfl, rfl⟩, fun l => ?_⟩
  · have same : s.jq.jobs.modifyHead (fun j => { j with busyTime := j.busyTime + 0 }) = s.jq.jobs := by
      cases s.jq.jobs <;> rfl
    show ({ s.jq with
      jobs := s.jq.jobs.modifyHead (fun j => { j with busyTime := j.busyTime + s.busyGrowth n }) } : JobQueue) = s.jq
    rw [still, same]
  · cases l <;> exact ⟨rfl, rfl, rfl, rfl, rfl⟩

/-- What is said of the entry to FAULTED does not depend on the timers. -/
theorem FaultedNow.of_timers {s u t : State} {c : FaultCause} {id : FlashId} (same : TimersOnly s u)
    (h : FaultedNow c id u t) : FaultedNow c id s t := by
  obtain ⟨records, cache, fills, jq, staging, protection, counters, ⟨active, -, burst, profile, resets⟩, links⟩ := same
  have set : ∀ i, u.set i = s.set i := set_eq_of_cache cache
  have isOpen : ∀ l, (u.link l).isOpen = (s.link l).isOpen := fun l => (links l).1
  have session : ∀ l, (u.link l).session = (s.link l).session := fun l => (links l).2.1
  have holder : ∀ l, (u.link l).holder = (s.link l).holder := fun l => (links l).2.2.1
  have reserved : ∀ l, (u.link l).reserved = (s.link l).reserved := fun l => (links l).2.2.2.1
  have fifo : ∀ l, (u.link l).fifo = (s.link l).fifo := fun l => (links l).2.2.2.2
  simpa only [FaultedNow, State.oneNeedWaits, State.faultSlotsReady, State.faultMessages, State.overlapsHold, State.holds,
    records, fills, jq, staging, protection, counters, active, burst, profile, resets, set, isOpen, session, holder,
    reserved, fifo] using h

/-! ### The end of a recovery transaction -/

/-- Past the 20 ms it leads to FAULTED (R137). -/
theorem recoveryStep_late {s : State} (hs : CacheOk s) (late : 20000 ≤ s.fsq.recoveryTime) (act : State → State) :
    FaultedNow .recoveryTimeout s.fsq.flashId s (s.recoveryStep act) := by
  have ended : s.recoveryStep act = s.endPort.recoveryFaulted .recoveryTimeout := if_pos late
  rw [ended]
  exact recoveryFaulted_now (s := s.endPort) .recoveryTimeout hs rfl

/-- Before them, with no RESET_FLASH due, it leads to its act. -/
theorem recoveryStep_act {s : State} (due : s.fsq.resetDue = false) (early : s.fsq.recoveryTime < 20000)
    (act : State → State) : s.recoveryStep act = act s.endPort := by
  have inTime : ¬ recoveryLimit ≤ s.endPort.fsq.recoveryTime := not_le.mpr early
  have none : ¬ s.endPort.fsq.resetDue = true := by simp [State.endPort, State.updFsq, due]
  exact (if_neg inTime).trans (if_neg none)

/-- A device that is busy in attempt 2 is STUCK_BUSY (R135). -/
theorem recoveryStatus_stuck {s : State} {b : Byte} (busy : b &&& s.fsq.active.busyMask ≠ 0) (second : s.fsq.attempt ≠ 1) :
    s.recoveryStatus b = s.recoveryFaulted .stuckBusy := by
  have reads : ¬ readsSet s.fsq.active.busyMask b = false := by simpa [readsSet, BitVec.and_comm] using busy
  exact (if_neg reads).trans (if_neg second)

/-- No device answers with all bits 0 or 1 (R136). -/
theorem recoveryId_absent {s : State} {id : FlashId} (absent : id = ⟨0, 0, 0⟩ ∨ id = ⟨0xFF, 0xFF, 0xFF⟩) :
    s.recoveryId id = (s.updFsq (fun q => { q with flashId := id })).recoveryFaulted .absent := by
  have h : idAbsent id = true := by rcases absent with rfl | rfl <;> rfl
  exact if_pos h

theorem exec_recoveryStatus {s : State} (h : s.portIs .recoveryStatusRead = true) (b : Byte) :
    exec (.recoveryStatusReadEnd b) s = .next (s.recoveryStep (fun t => t.recoveryStatus b)) := if_pos h

theorem exec_recoveryId {s : State} (h : s.portIs .recoveryIdRead = true) (id : FlashId) :
    exec (.recoveryIdReadEnd id) s = .next (s.recoveryStep (fun t => t.recoveryId id)) := if_pos h

/-- One transaction is in progress at most. -/
theorem portIs_unique {s : State} {u v : TransactionUse} (hu : s.portIs u = true) (hv : s.portIs v = true) : u = v := by
  unfold State.portIs at hu hv
  split at hu
  · next t running =>
    rw [running] at hv
    exact (of_decide_eq_true hu).symm.trans (of_decide_eq_true hv)
  · cases hu

/-- Any of the four transactions leads to `recoveryStep`. -/
theorem exec_recoveryEnd {s : State} {u : TransactionUse} (port : s.portIs u = true)
    (recovery : u ∈ [TransactionUse.recoveryReset1, .recoveryReset2, .recoveryStatusRead, .recoveryIdRead])
    (data : List Byte) : ∃ act, exec (u.endCommand data) s = .next (s.recoveryStep act) := by
  simp only [List.mem_cons, List.not_mem_nil, or_false] at recovery
  rcases recovery with rfl | rfl | rfl | rfl
  · exact ⟨_, if_pos port⟩
  · have other : ¬ s.portIs .recoveryReset1 = true := fun first => by cases portIs_unique port first
    exact ⟨_, (if_neg other).trans (if_pos port)⟩
  · exact ⟨_, exec_recoveryStatus port _⟩
  · exact ⟨_, exec_recoveryId port _⟩

/-! ### The 20 ms -/

theorem exec_recoveryTimeout_wait {s : State} (recovering : s.fsq.state = .recovering) (wait : s.fsq.wait = .recovery)
    (pass : s.canPass (20000 - s.fsq.recoveryTime) = true) : exec .recoveryTimeout s =
      .next ((s.advance (20000 - s.fsq.recoveryTime)).recoveryFaulted .recoveryTimeout) :=
  ((if_pos recovering).trans (if_pos wait)).trans (atExpiry_of_canPass pass)

theorem exec_recoveryTimeout_transaction {s : State} (recovering : s.fsq.state = .recovering)
    (wait : s.fsq.wait ≠ .recovery) (pass : s.canPass (20000 - s.fsq.recoveryTime) = true) :
    exec .recoveryTimeout s = .next (s.advance (20000 - s.fsq.recoveryTime)) :=
  ((if_pos recovering).trans (if_neg wait)).trans (atExpiry_of_canPass (act := id) pass)

/-- The recovery timer reaches its limit. -/
theorem advance_recoveryTime {s : State} (recovering : s.fsq.state = .recovering) (early : s.fsq.recoveryTime ≤ 20000) :
    (s.advance (20000 - s.fsq.recoveryTime)).fsq.recoveryTime = 20000 := by
  have grows : (s.advance (20000 - s.fsq.recoveryTime)).fsq.recoveryTime =
      min 20000 (s.fsq.recoveryTime + (20000 - s.fsq.recoveryTime)) := if_pos recovering
  rw [grows]
  omega

/-- Settles O53: each of the four ends of recovery is the entry to FAULTED of R140, on the state with the port free. -/
theorem entryToFaultedEndsEverything : Obligations.EntryToFaultedEndsEverything := by
  intro s hs
  refine ⟨fun due early => ⟨fun b port busy second => ?_, fun id port absent => ?_⟩,
    fun recovering wait port pass => ?_, fun recovering wait early pass => ?_, fun u recovery port late data => ?_⟩
  · refine ⟨_, exec_recoveryStatus port b, ?_⟩
    rw [recoveryStep_act due early, recoveryStatus_stuck (s := s.endPort) busy second]
    exact recoveryFaulted_now (s := s.endPort) .stuckBusy hs rfl
  · refine ⟨_, exec_recoveryId port id, ?_⟩
    rw [recoveryStep_act due early, recoveryId_absent absent]
    exact recoveryFaulted_now (s := s.endPort.updFsq (fun q => { q with flashId := id })) .absent hs rfl
  · have timers := advance_timersOnly wait port (20000 - s.fsq.recoveryTime)
    exact ⟨_, exec_recoveryTimeout_wait recovering wait pass,
      (recoveryFaulted_now (s := s.advance (20000 - s.fsq.recoveryTime)) .recoveryTimeout hs port).of_timers timers⟩
  · exact ⟨_, exec_recoveryTimeout_transaction recovering wait pass, advance_recoveryTime recovering early, rfl, recovering⟩
  · obtain ⟨act, ended⟩ := exec_recoveryEnd port recovery data
    exact ⟨_, ended, recoveryStep_late hs late act⟩

end Sys2Proof.Machine
end

section
/-! PROOFS. QUERY_JOB: the search of the queue and of the history by a job id. -/

namespace Sys2Proof.Machine

/-! ### The job id of a payload -/

theorem toNat_append_bytes (x y : Byte) : (y ++ x).toNat = x.toNat + 256 * y.toNat := by
  rw [BitVec.toNat_append, ← Nat.shiftLeft_add_eq_or_of_lt x.isLt, Nat.shiftLeft_eq]
  omega

/-- The id of a payload of two bytes, the least significant first. -/
theorem payloadId_pair (x y : Byte) : payloadId [x, y] = y ++ x := by
  have spelled : field [x, y] 0 2 = (y ++ x).toNat := by
    rw [toNat_append_bytes]
    simp [field, leNat]
  rw [payloadId, spelled, BitVec.ofNat_toNat, BitVec.setWidth_eq]

theorem leBytes_append_bytes (x y : Byte) : leBytes 2 (y ++ x).toNat = [x, y] := by
  have low : BitVec.ofNat 8 (x.toNat + 256 * y.toNat) = x := by
    apply BitVec.eq_of_toNat_eq
    rw [BitVec.toNat_ofNat]
    omega
  have high : (x.toNat + 256 * y.toNat) / 256 = y.toNat := by omega
  rw [toNat_append_bytes, leBytes, leBytes, leBytes, low, high, BitVec.ofNat_toNat, BitVec.setWidth_eq]

/-! ### The search of the queue -/

theorem placeOf_eq_findIdx? (s : State) (id : BitVec 16) : s.placeOf id = s.jq.jobs.findIdx? (fun j => j.id = id) := by
  rw [State.placeOf]
  split
  · next found => exact found.symm
  · next absent => exact absent.symm

/-- The place of the first job with the id. -/
theorem placeOf_eq_some {s : State} {id : BitVec 16} {i : Nat} {j : Job} (job : s.jq.jobs[i]? = some j) (own : j.id = id)
    (first : ∀ n, n < i → ∀ q, s.jq.jobs[n]? = some q → q.id ≠ id) : s.placeOf id = some i := by
  obtain ⟨bound, at_i⟩ := List.getElem?_eq_some_iff.mp job
  rw [placeOf_eq_findIdx?, List.findIdx?_eq_some_iff_getElem]
  refine ⟨bound, by rw [at_i]; exact decide_eq_true own, fun n hn found => ?_⟩
  exact first n hn _ (List.getElem?_eq_getElem _) (of_decide_eq_true found)

theorem placeOf_eq_none {s : State} {id : BitVec 16} (absent : ∀ j ∈ s.jq.jobs, j.id ≠ id) : s.placeOf id = none := by
  rw [placeOf_eq_findIdx?, List.findIdx?_eq_none_iff]
  exact fun j hj => decide_eq_false (absent j hj)

@[simp] theorem afterTake_placeOf (s : State) (l : Link) (id : BitVec 16) :
    (s.afterTake l).placeOf id = s.placeOf id := by rw [State.placeOf, State.placeOf, afterTake_jq]

@[simp] theorem afterTake_historyOf (s : State) (l : Link) (id : BitVec 16) :
    (s.afterTake l).historyOf id = s.historyOf id := by rw [State.historyOf, State.historyOf, afterTake_jq]

/-! ### QUERY_JOB -/

theorem queryBody_queued {q : Request} {s : State} {i : Nat} {j : Job} (place : s.placeOf (payloadId q.payload) = some i)
    (job : s.jq.jobs[i]? = some j) : queryBody q s = q.accept .queryJob (queueRecord j i) s := by
  simp only [queryBody, place, job]

theorem queryBody_ended {q : Request} {s : State} {e : HistoryEntry} (absent : s.placeOf (payloadId q.payload) = none)
    (entry : s.historyOf (payloadId q.payload) = some e) :
    queryBody q s = q.accept .queryJob (historyRecord e) s := by
  simp only [queryBody, absent, entry]

theorem queryBody_unknown {q : Request} {s : State} (absent : s.placeOf (payloadId q.payload) = none)
    (no_entry : s.historyOf (payloadId q.payload) = none) : queryBody q s = q.refuse .queryJob .unknownJob s := by
  simp only [queryBody, absent, no_entry]

/-- A request on an OPEN link that is answered with OK and has no other effect. -/
theorem answeredOnly_at_once (k : Kind) {l : Link} (tag : Byte) (p payload : List Byte) {s : State}
    (ho : (s.link l).isOpen = true) : AnsweredOnly k l tag payload s
      (({ link := l, session := (s.link l).session, tag := tag, payload := p } : Request).accept k payload (s.afterTake l)) :=
  ⟨answered_at_once s l _ ho, blocks_of_place s l _ _⟩

/-- Settles O36: the first job with the id answers, else the last history entry with it, else the id is refused. -/
theorem queryReportsAJob : Obligations.QueryReportsAJob := by
  intro l tag x y s ht ho
  have run := exec_request ht ho (show wrongSize .queryJob [x, y] = false from rfl)
  dsimp only [bodyOf] at run
  refine ⟨fun i j job own first => ⟨_, run, ?_⟩, fun absent => ⟨fun e entry => ⟨_, run, ?_⟩, fun no_entry => ⟨_, run, ?_⟩⟩⟩
  · have place := placeOf_eq_some job own first
    rw [queryBody_queued (i := i) (j := j) (by rw [afterTake_placeOf, payloadId_pair]; exact place)
      (by rw [afterTake_jq]; exact job), queueRecord, own, leBytes_append_bytes]
    exact answeredOnly_at_once _ _ _ _ ho
  · have id : e.id = y ++ x := of_decide_eq_true (List.find?_some (p := fun h : HistoryEntry => decide (h.id = y ++ x)) entry)
    rw [queryBody_ended (e := e) (by rw [afterTake_placeOf, payloadId_pair]; exact placeOf_eq_none absent)
      (by rw [afterTake_historyOf, payloadId_pair]; exact entry), historyRecord, id, leBytes_append_bytes]
    exact answeredOnly_at_once _ _ _ _ ho
  · have no_history : s.historyOf (y ++ x) = none := List.find?_eq_none.mpr fun e he => by
      simpa using no_entry e (List.mem_reverse.mp he)
    rw [queryBody_unknown (by rw [afterTake_placeOf, payloadId_pair]; exact placeOf_eq_none absent)
      (by rw [afterTake_historyOf, payloadId_pair]; exact no_history)]
    exact refused_at_once _ _ _ _ ho

end Sys2Proof.Machine
end

section
/-! PROOFS. A job request that passes its checks: the job is queued, or started at once on an idle port (R66, R100). -/

namespace Sys2Proof.Machine

/-! ### Pins in a range -/

theorem countWays_pos {s : State} {p : Fin 128 → CacheSet → Fin 4 → Bool} :
    0 < s.countWays p ↔ ∃ (i : Fin 128) (w : Fin 4), p i (s.set i) w = true := by
  rw [Nat.pos_iff_ne_zero, State.countWays, Ne, List.sum_eq_zero_iff]
  constructor
  · intro some_set
    by_contra none_counts
    push Not at none_counts
    refine some_set fun n hn => ?_
    obtain ⟨i, -, rfl⟩ := List.mem_map.mp hn
    rw [List.length_eq_zero_iff, List.filter_eq_nil_iff]
    exact fun w _ => none_counts i w
  · rintro ⟨i, w, counts⟩ empty
    have none_in := empty _ (List.mem_map.mpr ⟨i, List.mem_finRange i, rfl⟩)
    rw [List.length_eq_zero_iff, List.filter_eq_nil_iff] at none_in
    exact none_in w (mem_wayNumbers w) counts

theorem pinsIn_iff {s : State} {r : Range} : s.pinsIn (some r) = true ↔
    (∃ (i : Fin 128) (w : Fin 4), (s.set i).ways[w].pinned = true ∧
      lineInRange (wayLine i (s.set i).ways[w].tag) r = true) ∨
    ∃ q ∈ s.records, q.kind = .pin ∧ shareLine r q.range = true := by
  rw [State.pinsIn, Bool.or_eq_true, decide_eq_true_iff, countWays_pos, overlapsPin_iff]
  simp only [CacheSet.pinnedIn, Bool.and_eq_true]

/-! ### What a job request asks for -/

@[simp] theorem afterTake_capacity (s : State) (l : Link) : (s.afterTake l).capacity = s.capacity := by
  rw [State.capacity, State.capacity, afterTake_fsq]

theorem programChecks_afterTake (p : List Byte) (s : State) (l : Link) :
    programChecks p (s.afterTake l) = programChecks p s := by rw [programChecks, programChecks, afterTake_capacity]

theorem eraseChecks_afterTake (p : List Byte) (s : State) (l : Link) :
    eraseChecks p (s.afterTake l) = eraseChecks p s := by rw [eraseChecks, eraseChecks, afterTake_capacity]

theorem rawChecks_afterTake (p : List Byte) (s : State) (l : Link) :
    rawChecks p (s.afterTake l) = rawChecks p s := by rw [rawChecks, rawChecks, afterTake_capacity]

theorem rawSpec_afterTake (p : List Byte) (s : State) (l : Link) :
    rawSpec p (s.afterTake l) = rawSpec p s := by rw [rawSpec, rawSpec, afterTake_capacity]

/-- A job request's own part, on the state with its frame taken. -/
theorem bodyOf_jobAsked {k : Kind} {q : Request} {d : JobSpec} {own : List (Bool × Status)} {s : State}
    (asked : jobAsked k q.payload s = some (d, own)) (l : Link) :
    bodyOf k q (s.afterTake l) = jobRequest q k own d (s.afterTake l) := by
  unfold jobAsked at asked
  split at asked <;> cases asked
  · show programBody q _ = _
    rw [programBody, programChecks_afterTake]
  · show eraseBody q _ = _
    rw [eraseBody, eraseChecks_afterTake]
  · show rawBody q _ = _
    rw [rawBody, rawChecks_afterTake, rawSpec_afterTake]

/-- Only a RAW job has a RAW part. -/
theorem jobAsked_raw {k : Kind} {p : List Byte} {d : JobSpec} {own : List (Bool × Status)} {s : State}
    (asked : jobAsked k p s = some (d, own)) {r : RawJob} (raw : d.raw = some r) : d.kind = .raw := by
  unfold jobAsked at asked
  split at asked <;> cases asked
  · cases raw
  · cases raw
  · rfl

theorem jobRequest_refuses {q : Request} {k : Kind} {own : List (Bool × Status)} {d : JobSpec} {s : State} {st : Status}
    (h : firstFailure (own ++ commonChecks q.link d.kind d.range s) = some st) :
    jobRequest q k own d s = q.refuse k st s := by rw [jobRequest, h]

theorem jobRequest_accepts {q : Request} {k : Kind} {own : List (Bool × Status)} {d : JobSpec} {s : State}
    (h : firstFailure (own ++ commonChecks q.link d.kind d.range s) = none) :
    jobRequest q k own d s = s.acceptJob q k d := by rw [jobRequest, h]

/-- What the words `jobPasses` say of the request and the state. -/
structure JobPasses (k : Kind) (l : Link) (tag : Byte) (p : List Byte) (d : JobSpec) (s : State) : Prop where
  takes : s.takesRequest k l tag p = true
  isOpen : (s.link l).isOpen = true
  size : wrongSize k p = false
  asks : ∃ own, jobAsked k p s = some (d, own) ∧
    firstFailure (own ++ commonChecks l d.kind d.range (s.afterTake l)) = none

theorem jobPasses_iff {k : Kind} {l : Link} {tag : Byte} {p : List Byte} {d : JobSpec} {s : State}
    (h : jobPasses k l tag p d s = true) : JobPasses k l tag p d s := by
  simp only [jobPasses, Bool.and_eq_true, Bool.not_eq_true'] at h
  obtain ⟨⟨⟨takes, isOpen⟩, size⟩, asks⟩ := h
  split at asks
  · next e own asked =>
    simp only [Bool.and_eq_true, decide_eq_true_eq, Option.isNone_iff_eq_none] at asks
    obtain ⟨rfl, passed⟩ := asks
    exact ⟨takes, isOpen, size, own, asked, passed⟩
  · cases asks

/-! ### The steps of an acceptance -/

/-- Steps 1, 2 and 4 of R66, and the slot for JOB_DONE of step 3: all but the reply. -/
def State.jobHeld (s : State) (q : Request) (d : JobSpec) : State := ((s.appendJob q d).reserve q.link).holdRange d.range

theorem acceptJob_eq (s : State) (q : Request) (k : Kind) (d : JobSpec) : s.acceptJob q k d =
    if s.jq.jobs = [] then (q.accept k (leBytes 2 s.jq.nextId.toNat) (s.jobHeld q d)).kick
    else q.accept k (leBytes 2 s.jq.nextId.toNat) (s.jobHeld q d) := by
  unfold State.acceptJob State.jobHeld
  cases jobs : s.jq.jobs <;> rfl

/-- The staging pool with the bytes of a job in the buffer it takes (R61). -/
def State.stagingWith (s : State) (d : JobSpec) : Vector (Option (List Byte)) 4 :=
  match s.takenBuffer d.kind with
  | some b => s.staging.set b (some d.data)
  | none => s.staging

theorem set_staging (v : Vector (Option (List Byte)) 4) (c b : Fin 4) (x : Option (List Byte)) :
    (v.set c x)[b] = if c = b then x else v[b] := by
  by_cases e : c = b
  · subst e
    simp
  · have ne : (c : Nat) ≠ b := fun h => e (Fin.ext h)
    simp [e, ne]

/-- A PROGRAM's bytes stand in the lowest free buffer; all others are as before. -/
theorem stagingWith_buffer (s : State) (d : JobSpec) (b : Fin 4) : (s.stagingWith d)[b] =
    if d.kind = .program ∧ s.lowestFreeBuffer = some b then some d.data else s.staging[b] := by
  unfold State.stagingWith State.takenBuffer
  by_cases program : d.kind = .program
  · simp only [program, if_true, true_and]
    cases buffer : s.lowestFreeBuffer with
    | none => simp
    | some c => simp only [set_staging, Option.some.injEq]
  · simp [program]

theorem appendJob_eq (s : State) (q : Request) (d : JobSpec) : s.appendJob q d =
    { s with
      fsq := { s.fsq with burst := if s.jq.jobs = [] then 0 else s.fsq.burst }
      jq := { s.jq with
        jobs := s.jq.jobs ++ [newJob q d s.jq.nextId (s.takenBuffer d.kind)], nextId := nextJobId s.jq.nextId }
      staging := s.stagingWith d } := by
  unfold State.appendJob State.stagingWith
  dsimp only
  cases jobs : s.jq.jobs <;> cases s.takenBuffer d.kind <;> simp [State.updFsq, jobs]

theorem holdRange_linksSame (s : State) (r : Option Range) : LinksSame s (s.holdRange r) := by
  cases r with
  | none => exact .refl s
  | some r => exact clearRange_linksSame s r

theorem LinksSame.reserve {s t : State} (h : LinksSame s t) (l : Link) : LinksSame (s.reserve l) (t.reserve l) := by
  obtain ⟨linkA, linkB, spi, uart, pins, pending⟩ := h
  cases l <;> simp [LinksSame, State.reserve, State.updLink, *]

theorem jobHeld_linksSame (s : State) (q : Request) (d : JobSpec) : LinksSame (s.reserve q.link) (s.jobHeld q d) := by
  have appended : LinksSame s (s.appendJob q d) := by
    rw [appendJob_eq]
    exact ⟨rfl, rfl, rfl, rfl, rfl, rfl⟩
  exact (appended.reserve q.link).trans (holdRange_linksSame _ _)

section JobHeld

variable (s : State) (q : Request) (d : JobSpec)

theorem jobHeld_jq : (s.jobHeld q d).jq = { s.jq with
    jobs := s.jq.jobs ++ [newJob q d s.jq.nextId (s.takenBuffer d.kind)], nextId := nextJobId s.jq.nextId } := by
  unfold State.jobHeld State.holdRange
  split <;> simp [appendJob_eq]

theorem jobHeld_fsq : (s.jobHeld q d).fsq = { s.fsq with burst := if s.jq.jobs = [] then 0 else s.fsq.burst } := by
  unfold State.jobHeld State.holdRange
  split <;> simp [appendJob_eq]

theorem jobHeld_staging : (s.jobHeld q d).staging = s.stagingWith d := by
  unfold State.jobHeld State.holdRange
  split <;> simp [appendJob_eq]

theorem jobHeld_protection : (s.jobHeld q d).protection = s.protection := by
  unfold State.jobHeld State.holdRange
  split <;> simp [appendJob_eq]

theorem jobHeld_records : (s.jobHeld q d).records = s.records := by
  unfold State.jobHeld State.holdRange
  split <;> simp [appendJob_eq]

theorem jobHeld_readSide (h : d.range = none) :
    (s.jobHeld q d).cache = s.cache ∧ (s.jobHeld q d).fills = s.fills ∧ (s.jobHeld q d).counters = s.counters := by
  simp [State.jobHeld, State.holdRange, h, appendJob_eq]

/-- The sets are as `clearRange` leaves them (R81). -/
theorem jobHeld_set {r : Range} (h : d.range = some r) (i : Fin 128) : (s.jobHeld q d).set i = (s.set i).discard i r := by
  have same : ((s.appendJob q d).reserve q.link).set i = s.set i :=
    set_eq_of_cache (by rw [reserve_cache, appendJob_eq]) i
  rw [State.jobHeld, h, ← same]
  exact clearRange_set _ r i

theorem jobHeld_fills {r : Range} (h : d.range = some r) : (s.jobHeld q d).fills = s.fills.map (Fill.doomIn r) := by
  simp [State.jobHeld, State.holdRange, h, clearRange_fills, appendJob_eq]

end JobHeld

theorem doomIn_doomed {r : Range} {f : Fill} (h : lineInRange (f.doomIn r).line r = true) : (f.doomIn r).doomed = true := by
  unfold Fill.doomIn at h ⊢
  split
  · rfl
  · next outside =>
    rw [if_neg outside] at h
    exact absurd h outside

theorem doomIn_line (r : Range) (f : Fill) : (f.doomIn r).line = f.line := congrArg Prod.fst (doomIn_bond r f)

theorem doomIn_phase (r : Range) (f : Fill) : (f.doomIn r).phase = f.phase := by
  unfold Fill.doomIn
  split <;> rfl

/-- No line of the range is pinned, so every VALID one goes (R65, R81). -/
theorem discard_of_no_pins {s : State} (recency : RecencyOk s) {r : Range} (unpinned : s.pinsIn (some r) = false)
    (i : Fin 128) (w : Fin 4) : ((s.set i).discard i r).ways[w] =
      if (s.set i).ways[w].isValid && lineInRange (wayLine i (s.set i).ways[w].tag) r then .invalid
      else (s.set i).ways[w] := by
  have no_pin : ¬ ((s.set i).ways[w].pinned = true ∧ lineInRange (wayLine i (s.set i).ways[w].tag) r = true) := fun pin =>
    absurd (pinsIn_iff.mpr (.inl ⟨i, w, pin⟩)) (by simp [unpinned])
  rw [discard_ways_of_recencyOk (recency i), CacheSet.discardable]
  cases pinned : (s.set i).ways[w].pinned with
  | false => simp
  | true =>
    have outside : lineInRange (wayLine i (s.set i).ways[w].tag) r = false :=
      Bool.eq_false_of_not_eq_true fun inside => no_pin ⟨pinned, inside⟩
    rw [outside, Bool.and_false, Bool.and_false]

/-! ### What an acceptance leaves -/

theorem AcceptanceDone.of_same {d : JobSpec} {s t u : State} (h : AcceptanceDone d s t) (nextId : u.jq.nextId = t.jq.nextId)
    (history : u.jq.history = t.jq.history) (staging : u.staging = t.staging) (protection : u.protection = t.protection)
    (records : u.records = t.records) (cache : u.cache = t.cache) (fills : u.fills = t.fills)
    (counters : u.counters = t.counters) : AcceptanceDone d s u := by
  unfold AcceptanceDone at h ⊢
  simp only [set_eq_of_cache cache]
  rwa [nextId, history, staging, protection, records, cache, fills, counters]

theorem FrameTaken.trans {l : Link} {fifo : List Message} {reserved : List Byte} {s t u : State}
    (h : FrameTaken l fifo reserved s t) (g : LinksSame t u) : FrameTaken l fifo reserved s u := by
  unfold FrameTaken at h ⊢
  rw [g.link]
  obtain ⟨h1, h2, h3, h4, h5, h6, h7, h8, h9, h10, elsewhere⟩ := h
  exact ⟨h1, h2, h3, h4, h5, h6, h7, h8, h9, h10, elsewhere.trans g⟩

/-- A reply placed once a second slot is reserved: that slot is kept. -/
theorem frameTaken_of_reserved {s t : State} {l : Link} (m : Message) (ho : (s.link l).isOpen = true)
    (h : LinksSame ((s.afterTake l).reserve l) t) : FrameTaken l ((s.link l).fifo ++ [m])
      ((s.link l).session :: (s.link l).reserved) s (t.place l (s.link l).session m) := by
  have own : t.link l = (s.link l).take.reserve := by rw [h.link, reserve_link, afterTake_link]
  have kept : (s.link l).take.reserve.reserved = ((s.link l).reserved ++ [(s.link l).session]) ++ [(s.link l).session] := rfl
  have held : (s.link l).session ∈ (s.link l).take.reserve.reserved := by simp [kept]
  refine ⟨?fifo, ?reserved, ?_, ?_, ?_, ?_, ?_, ?_, ?_, ?_, ?elsewhere⟩
  case elsewhere =>
    have other : otherLink l ≠ l := by cases l <;> simp [otherLink]
    have links := h.link
    obtain ⟨-, -, spi, uart, pins, pending⟩ := h
    refine ⟨?_, ?_, ?_, ?_, ?_⟩
    · rw [place_link_other _ _ _ _ _ other, links, State.reserve, updLink_link_other _ _ _ _ other, afterTake_other]
    · rw [place_spi, spi, reserve_spi, afterTake_transaction]
    · rw [place_uart, uart, reserve_uart, afterTake_uart]
    · rw [place_pins, pins, reserve_pins, afterTake_pins]
    · rw [place_pending, pending, reserve_pending, afterTake_pending]
  all_goals rw [place_link, own]
  case fifo =>
    rw [place_fifo, if_pos ⟨held, ho⟩]
    rfl
  case reserved =>
    rw [place_reserved, if_pos held, kept]
    exact (reserve_erase_perm _ _).trans List.perm_append_comm
  all_goals simp [LinkState.reserve]

section Passed

variable {k : Kind} {l : Link} {tag : Byte} {p : List Byte} {d : JobSpec} {s : State}

/-- The request of a frame that has just been taken. -/
def State.taken (s : State) (l : Link) (tag : Byte) (p : List Byte) : Request :=
  { link := l, session := (s.link l).session, tag := tag, payload := p }

/-- The job has been accepted and its reply placed, before FSQ goes on. -/
def State.jobReplied (s : State) (k : Kind) (l : Link) (tag : Byte) (p : List Byte) (d : JobSpec) : State :=
  ((s.afterTake l).jobHeld (s.taken l tag p) d).place l (s.link l).session
    (replyMessage k tag .ok (leBytes 2 s.jq.nextId.toNat))

/-- A request that passes its checks is accepted; if its job is head, FSQ goes on (R66, R100). -/
theorem exec_jobPasses (h : JobPasses k l tag p d s) : exec (requestOf k l tag p) s =
    .next (if s.jq.jobs = [] then (s.jobReplied k l tag p d).kick else s.jobReplied k l tag p d) := by
  obtain ⟨own, asked, passed⟩ := h.asks
  refine (exec_request h.takes h.isOpen h.size).trans (congrArg _ ?_)
  rw [bodyOf_jobAsked asked l, jobRequest_accepts passed, acceptJob_eq, afterTake_jq]
  rfl

@[simp] theorem afterTake_lowestFreeBuffer (s : State) (l : Link) :
    (s.afterTake l).lowestFreeBuffer = s.lowestFreeBuffer := by
  rw [State.lowestFreeBuffer, State.lowestFreeBuffer, afterTake_staging]

@[simp] theorem afterTake_takenBuffer (s : State) (l : Link) (kind : JobKind) :
    (s.afterTake l).takenBuffer kind = s.takenBuffer kind := by
  rw [State.takenBuffer, State.takenBuffer, afterTake_lowestFreeBuffer]

theorem jobReplied_jobs : (s.jobReplied k l tag p d).jq.jobs = s.jq.jobs ++ [acceptedJob l d s] := by
  rw [State.jobReplied, place_jq, jobHeld_jq, afterTake_takenBuffer, afterTake_jq]
  rfl

theorem jobReplied_fsq : (s.jobReplied k l tag p d).fsq =
    { s.fsq with burst := if s.jq.jobs = [] then 0 else s.fsq.burst } := by
  rw [State.jobReplied, place_fsq, jobHeld_fsq, afterTake_jq, afterTake_fsq]

theorem jobReplied_frameTaken (h : JobPasses k l tag p d s) :
    FrameTaken l ((s.link l).fifo ++ [replyMessage k tag .ok (leBytes 2 s.jq.nextId.toNat)])
      ((s.link l).session :: (s.link l).reserved) s (s.jobReplied k l tag p d) :=
  frameTaken_of_reserved _ h.isOpen (jobHeld_linksSame _ _ _)

/-- The range of a request that passes holds no pin (R65). -/
theorem JobPasses.no_pins (h : JobPasses k l tag p d s) : s.pinsIn d.range = false := by
  obtain ⟨own, -, passed⟩ := h.asks
  have free := check_passed passed (b := (s.afterTake l).pinsIn d.range) (st := .rangePinned) (by simp [commonChecks])
  cases range : d.range with
  | none => rfl
  | some r =>
    rw [range, State.pinsIn] at free
    simpa only [State.pinsIn, afterTake_countWays, afterTake_overlapsPin] using free

theorem jobHeld_done (recency : RecencyOk s) (h : JobPasses k l tag p d s) :
    AcceptanceDone d s ((s.afterTake l).jobHeld (s.taken l tag p) d) := by
  refine ⟨?_, ?_, fun b => ?_, ?_, ?_, fun range => ?_, fun r range => ⟨fun i w => ?_, fun f hf inside => ?_, ?_⟩⟩
  · rw [jobHeld_jq, afterTake_jq]
    rfl
  · rw [jobHeld_jq, afterTake_jq]
  · rw [jobHeld_staging, stagingWith_buffer, afterTake_lowestFreeBuffer, afterTake_staging]
  · rw [jobHeld_protection, afterTake_protection]
  · rw [jobHeld_records, afterTake_records]
  · obtain ⟨cache, fills, counters⟩ := jobHeld_readSide (s.afterTake l) (s.taken l tag p) d range
    exact ⟨cache.trans (afterTake_cache s l), fills.trans (afterTake_fills s l), counters.trans (afterTake_counters s l)⟩
  · rw [jobHeld_set _ _ _ range, afterTake_set]
    exact discard_of_no_pins recency (range ▸ h.no_pins) i w
  · rw [jobHeld_fills _ _ _ range] at hf
    obtain ⟨g, -, rfl⟩ := List.mem_map.mp hf
    exact doomIn_doomed inside
  · rw [jobHeld_fills _ _ _ range, afterTake_fills, List.map_map]
    exact List.map_congr_left fun f _ => doomIn_line r f

theorem jobReplied_done (recency : RecencyOk s) (h : JobPasses k l tag p d s) :
    AcceptanceDone d s (s.jobReplied k l tag p d) := by
  refine (jobHeld_done recency h).of_same ?_ ?_ ?_ ?_ ?_ ?_ ?_ ?_ <;> simp [State.jobReplied]

/-- No entry WAITS after the acceptance if none did before. -/
theorem jobReplied_oldestWaiting (none_waits : ∀ f ∈ s.fills, f.phase ≠ .waiting) :
    (s.jobReplied k l tag p d).oldestWaiting = none := by
  rw [State.oldestWaiting, List.find?_eq_none]
  intro f hf
  rw [State.jobReplied, place_fills] at hf
  cases range : d.range with
  | none =>
    rw [(jobHeld_readSide _ _ _ range).2.1, afterTake_fills] at hf
    simpa using none_waits f hf
  | some r =>
    rw [jobHeld_fills _ _ _ range, afterTake_fills] at hf
    obtain ⟨g, hg, rfl⟩ := List.mem_map.mp hf
    simpa [doomIn_phase] using none_waits g hg

end Passed

/-- Settles O31: the five steps of R66, after which a port in use leaves FSQ nothing to do. -/
theorem acceptedJobIsQueued : Obligations.AcceptedJobIsQueued := by
  intro k l tag p d s recency passes busy
  have h := jobPasses_iff passes
  have still : (if s.jq.jobs = [] then (s.jobReplied k l tag p d).kick else s.jobReplied k l tag p d) =
      s.jobReplied k l tag p d := by
    split
    · next empty =>
      exact kick_of_port (by rw [jobReplied_fsq]; exact busy.resolve_left fun jobs => jobs empty)
    · rfl
  exact ⟨_, (exec_jobPasses h).trans (congrArg _ still), jobReplied_jobs, jobReplied_done recency h, jobReplied_frameTaken h,
    jobReplied_fsq⟩

/-- FSQ starts the one QUEUED job where nothing else waits (R101). -/
theorem choose_starts {s : State} {j : Job} (hj : s.head = some j) (queued : j.phase = none)
    (none_waits : s.oldestWaiting = none) : s.choose = s.startJob j := by
  rw [State.choose, hj]
  simp [queued, none_waits]

/-- Settles O32: after the five steps of R66 FSQ arbitrates, and the job is all it has. -/
theorem acceptedJobStartsOnAnIdlePort : Obligations.AcceptedJobStartsOnAnIdlePort := by
  intro k l tag p d s recency passes empty state port profile none_waits
  have h := jobPasses_iff passes
  obtain ⟨own, asked, -⟩ := h.asks
  have fsq := jobReplied_fsq (k := k) (l := l) (tag := tag) (p := p) (d := d) (s := s)
  have jobs := jobReplied_jobs (k := k) (l := l) (tag := tag) (p := p) (d := d) (s := s)
  rw [empty, List.nil_append] at jobs
  have head : (s.jobReplied k l tag p d).head = some (acceptedJob l d s) := by rw [State.head, jobs]; rfl
  have started : (s.jobReplied k l tag p d).kick = (s.jobReplied k l tag p d).startJob (acceptedJob l d s) := by
    rw [kick_of_ready (by rw [fsq]; exact port) (by rw [fsq]; exact state) (by rw [fsq]; exact profile)]
    exact choose_starts head rfl (jobReplied_oldestWaiting none_waits)
  have run := exec_jobPasses h
  rw [if_pos empty, started] at run
  refine ⟨_, run, ?_, (jobReplied_done recency h).of_same rfl rfl rfl rfl rfl rfl rfl rfl,
    (jobReplied_frameTaken h).trans ⟨rfl, rfl, rfl, rfl, rfl, rfl⟩,
    (s.jobReplied k l tag p d).firstTransaction (acceptedJob l d s), ?_, ?_⟩
  · rw [startJob_eq, jobs]
    rfl
  · rw [startJob_eq, fsq]
    rfl
  · rw [State.firstTransaction, Job.writeEnableFirst, fsq]
    have raw : (acceptedJob l d s).raw = d.raw := rfl
    rw [raw]
    cases part : d.raw with
    | none => rfl
    | some r =>
      dsimp only
      split
      · rfl
      · have kind : (acceptedJob l d s).kind = .raw := jobAsked_raw asked part
        have main : (s.jobReplied k l tag p d).mainTransaction (acceptedJob l d s) =
            (s.jobReplied k l tag p d).descriptor r := by simp only [State.mainTransaction, kind, raw, part]
        rw [main]
        refine ⟨rfl, rfl, rfl, rfl, rfl, ?_⟩
        rw [State.descriptor]
        cases r.address with
        | none => rfl
        | some a =>
          show (s.jobReplied k l tag p d).addressBytes a = _
          rw [State.addressBytes, fsq]

end Sys2Proof.Machine
end

section
/-! PROOFS. The checks of PROGRAM, ERASE and RAW, in their order (R62 to R65, R150). -/

namespace Sys2Proof.Machine

/-! ### What FSQ does of itself to the jobs -/

/-- A job's record but for its phase. -/
def Job.unphased (j : Job) : Job := { j with phase := none }

theorem modifyHead_unphased {f : Job → Job} (h : ∀ j, (f j).unphased = j.unphased) (js : List Job) :
    (js.modifyHead f).map Job.unphased = js.map Job.unphased := by
  cases js with
  | nil => rfl
  | cons j js => rw [List.modifyHead_cons, List.map_cons, List.map_cons, h]

theorem choose_jobs (s : State) : s.choose.jq.jobs.map Job.unphased = s.jq.jobs.map Job.unphased := by
  have serves : s.serveOldest.jq = s.jq := by
    rw [State.serveOldest]
    split <;> rfl
  rw [State.choose]
  split
  · split
    · exact modifyHead_unphased (f := fun j => { j with phase := some .issue }) (fun _ => rfl) _
    · rw [serves]
  · rw [serves]

theorem suspendedDecision_jq (s : State) : s.suspendedDecision.jq = s.jq := by
  unfold State.suspendedDecision
  split_ifs
  · rfl
  · rfl
  · split <;> rfl

/-- FSQ changes no more of a job than its phase. -/
theorem kick_jobs (s : State) : s.kick.jq.jobs.map Job.unphased = s.jq.jobs.map Job.unphased := by
  unfold State.kick
  split
  · rfl
  · split
    · rw [State.arbitrate, choose_jobs, applyProfile_jq]
    · split
      · exact modifyHead_unphased (f := fun j => { j with phase := some .suspending }) (fun _ => rfl) _
      · rfl
    · rw [suspendedDecision_jq]
    · rfl

/-- The job of an accepted request stands in the queue. -/
theorem acceptJob_queues (s : State) (q : Request) (k : Kind) (d : JobSpec) :
    ∃ j ∈ (s.acceptJob q k d).jq.jobs, j.id = s.jq.nextId ∧ j.kind = d.kind ∧ j.range = d.range := by
  have same : (s.acceptJob q k d).jq.jobs.map Job.unphased =
      (s.jq.jobs ++ [newJob q d s.jq.nextId (s.takenBuffer d.kind)]).map Job.unphased := by
    have replied : (q.accept k (leBytes 2 s.jq.nextId.toNat) (s.jobHeld q d)).jq.jobs =
        s.jq.jobs ++ [newJob q d s.jq.nextId (s.takenBuffer d.kind)] := by
      rw [Request.accept, place_jq, jobHeld_jq]
    rw [acceptJob_eq]
    split
    · rw [kick_jobs, replied]
    · rw [replied]
  have mem : (newJob q d s.jq.nextId (s.takenBuffer d.kind)).unphased ∈ (s.acceptJob q k d).jq.jobs.map Job.unphased := by
    rw [same, List.map_append]
    exact List.mem_append_right _ List.mem_cons_self
  obtain ⟨j, hj, own⟩ := List.mem_map.mp mem
  exact ⟨j, hj, congrArg Job.id own, congrArg Job.kind own, congrArg Job.range own⟩

/-! ### The common checks, each by what it asks -/

@[simp] theorem afterTake_pinsIn (s : State) (l : Link) (r : Option Range) : (s.afterTake l).pinsIn r = s.pinsIn r := by
  cases r with
  | none => rfl
  | some r => simp only [State.pinsIn, afterTake_countWays, afterTake_overlapsPin]

@[simp] theorem afterTake_protects (s : State) (l : Link) (kind : JobKind) (r : Option Range) :
    (s.afterTake l).protects kind r = s.protects kind r := by
  cases r with
  | none => rfl
  | some r => rw [State.protects, State.protects, afterTake_protection]

/-- The FREE slots once the frame has reserved one. -/
theorem afterTake_freeSlots (s : State) (l : Link) : ((s.afterTake l).link l).freeSlots = (s.link l).freeSlots - 1 := by
  rw [afterTake_link, LinkState.freeSlots, LinkState.freeSlots, take_reserved, take_fifo, List.length_append,
    List.length_singleton]
  omega

/-- The common checks, read before the frame is taken: it takes one of the two slots that a job needs. -/
def takenChecks (l : Link) (kind : JobKind) (r : Option Range) (s : State) : List (Bool × Status) :=
  [(s.fsq.state = .faulted, .flashFault), (s.protects kind r, .protectedRange), (s.pinsIn r, .rangePinned),
   (jobLimit ≤ s.jq.jobs.length, .queueFull), ((s.link l).freeSlots ≤ 1, .replySpace),
   (kind = .program && s.lowestFreeBuffer.isNone, .noBuffer)]

theorem commonChecks_afterTake (l : Link) (kind : JobKind) (r : Option Range) (s : State) :
    commonChecks l kind r (s.afterTake l) = takenChecks l kind r s := by
  have room : (s.link l).freeSlots - 1 = 0 ↔ (s.link l).freeSlots ≤ 1 := by omega
  simp only [commonChecks, takenChecks, afterTake_fsq, afterTake_protects, afterTake_pinsIn, afterTake_jq,
    afterTake_freeSlots, afterTake_lowestFreeBuffer, room]

theorem protects_iff {s : State} {kind : JobKind} {r : Range} : s.protects kind (some r) = true ↔
    ∃ (i : Fin 8) (e : ProtectEntry), s.protection[i] = some e ∧ e.forbids kind r = true := by
  rw [State.protects]
  simp only [List.any_eq_true, Vector.mem_toList_iff, Vector.mem_iff_getElem]
  constructor
  · rintro ⟨x, ⟨i, hi, rfl⟩, forbids⟩
    split at forbids
    · next e entry => exact ⟨⟨i, hi⟩, e, entry, forbids⟩
    · cases forbids
  · rintro ⟨i, e, entry, forbids⟩
    refine ⟨some e, ⟨i, i.isLt, entry⟩, forbids⟩

theorem shareByte_iff {r q : Range} : shareByte r q = true ↔ r.base < q.base + q.length ∧ q.base < r.base + r.length := by
  simp [shareByte]

theorem forbids_program_iff {e : ProtectEntry} {r : Range} : e.forbids .program r = true ↔
    e.mode = .noModify ∧ e.base < r.base + r.length ∧ r.base < e.base + e.length := by
  simp [ProtectEntry.forbids, shareByte_iff]

/-- Every entry that meets the unit forbids its erase. -/
theorem forbids_erase_iff {e : ProtectEntry} {p : List Byte} {r : Range} : e.forbids (eraseSpec p).kind r = true ↔
    e.base < r.base + r.length ∧ r.base < e.base + e.length := by
  rw [eraseSpec]
  dsimp only
  split <;> simp [ProtectEntry.forbids, shareByte_iff]

/-- Any entry forbids a RAW that modifies. -/
theorem protects_raw_iff {s : State} {r : Range} : s.protects .raw (some r) = true ↔ ∃ i : Fin 8, s.protection[i] ≠ none := by
  rw [protects_iff]
  constructor
  · rintro ⟨i, e, entry, -⟩
    exact ⟨i, by simp [entry]⟩
  · rintro ⟨i, entry⟩
    obtain ⟨e, entry⟩ := Option.ne_none_iff_exists'.mp entry
    exact ⟨i, e, entry, rfl⟩

theorem lowestFreeBuffer_isNone {s : State} : s.lowestFreeBuffer.isNone = true ↔ ∀ b : Fin 4, s.staging[b] ≠ none := by
  rw [Option.isNone_iff_eq_none, State.lowestFreeBuffer, List.find?_eq_none]
  exact ⟨fun h b free => h b (mem_wayNumbers b) (by simp [free]), fun h b _ => by simpa using h b⟩

/-! ### The order of the checks -/

section JobRequest

variable {k : Kind} {l : Link} {tag : Byte} {p : List Byte} {own : List (Bool × Status)} {d : JobSpec} {s : State}

/-- The first check that fails refuses a job request. -/
theorem jobRequest_refuses_taken (st : Status) (h : firstFailure (own ++ takenChecks l d.kind d.range s) = some st) :
    jobRequest { link := l, session := (s.link l).session, tag := tag, payload := p } k own d (s.afterTake l) =
      ({ link := l, session := (s.link l).session, tag := tag, payload := p } : Request).refuse k st (s.afterTake l) :=
  jobRequest_refuses (by rw [commonChecks_afterTake]; exact h)

/-- With none its job stands in the queue. -/
theorem jobRequest_queues (h : firstFailure (own ++ takenChecks l d.kind d.range s) = none) :
    ∃ j ∈ (jobRequest { link := l, session := (s.link l).session, tag := tag, payload := p } k own d
      (s.afterTake l)).jq.jobs, j.id = s.jq.nextId ∧ j.kind = d.kind ∧ j.range = d.range := by
  rw [jobRequest_accepts (by rw [commonChecks_afterTake]; exact h), ← afterTake_jq s l]
  exact acceptJob_queues _ _ _ _

variable {t : State} {first : Option Status} (ho : (s.link l).isOpen = true)
  (refuses : ∀ st, first = some st →
    t = ({ link := l, session := (s.link l).session, tag := tag, payload := p } : Request).refuse k st (s.afterTake l))
include ho refuses

/-- Two checks with one status act as one. -/
theorem check_decides_or {b c : Bool} {st : Status} {cs : List (Bool × Status)} {P A : Prop} (dec : Decidable P)
    (left : first = firstFailure ((b, st) :: (c, st) :: cs)) (test : b = true ∨ c = true ↔ P)
    (rest : first = firstFailure cs → A) : if P then Refused k l tag p st s t else A := by
  have one : firstFailure ((b, st) :: (c, st) :: cs) = firstFailure ((b || c, st) :: cs) := by
    cases b <;> simp [firstFailure_cons]
  exact check_decides ho refuses dec (left.trans one) (Bool.or_eq_true_iff.trans test) rest

/-- Checks 4 to 8 of R65, by what protection and pins ask of the job. -/
theorem takenChecks_decide {kind : JobKind} {r : Option Range} {P Q A : Prop} (decP : Decidable P) (decQ : Decidable Q)
    (left : first = firstFailure (takenChecks l kind r s)) (protects : s.protects kind r = true ↔ P)
    (pins : s.pinsIn r = true ↔ Q)
    (rest : first = firstFailure [(kind = .program && s.lowestFreeBuffer.isNone, .noBuffer)] → A) :
    if s.fsq.state = .faulted then Refused k l tag p .flashFault s t
    else if P then Refused k l tag p .protectedRange s t
    else if Q then Refused k l tag p .rangePinned s t
    else if 8 ≤ s.jq.jobs.length then Refused k l tag p .queueFull s t
    else if (s.link l).freeSlots ≤ 1 then Refused k l tag p .replySpace s t
    else A := by
  refine check_decides ho refuses _ left decide_eq_true_iff fun left => ?_
  refine check_decides ho refuses _ left protects fun left => ?_
  refine check_decides ho refuses _ left pins fun left => ?_
  refine check_decides ho refuses _ left decide_eq_true_iff fun left => ?_
  exact check_decides ho refuses _ left decide_eq_true_iff rest

end JobRequest

/-- Settles O33: the checks of R62 and then the common ones, each refusing with its status. -/
theorem programIsChecked : Obligations.ProgramIsChecked := by
  intro l tag p s ht ho
  refine ⟨_, exec_request ht ho (by rfl), ?_⟩
  rw [bodyOf_jobAsked (d := programSpec p) (own := programChecks p s) (by rfl)]
  have refuses := jobRequest_refuses_taken (k := .program) (l := l) (tag := tag) (p := p) (own := programChecks p s)
    (d := programSpec p) (s := s)
  have length : (p.drop 5).length = p.length - 5 := List.length_drop
  have range : (programSpec p).range = some { base := field p 0 4, length := p.length - 5 } := by rw [programSpec, length]
  dsimp only
  refine check_decides_or ho refuses _ rfl (by simp) fun left => ?_
  refine check_decides ho refuses _ left (by rw [length]; exact lengthBad_iff) fun left => ?_
  refine check_decides ho refuses _ left (by rw [length]; exact decide_eq_true_iff) fun left => ?_
  refine check_decides ho refuses _ left (by rw [length]; exact decide_eq_true_iff) fun left => ?_
  refine takenChecks_decide ho refuses _ _ left ?protects ?pins fun left => ?_
  case protects =>
    rw [range]
    simp only [programSpec, protects_iff, forbids_program_iff]
  case pins =>
    rw [range]
    exact pinsIn_iff
  refine check_decides ho refuses _ left lowestFreeBuffer_isNone fun left => ?_
  obtain ⟨j, hj, id, kind, own⟩ := jobRequest_queues (k := .program) (tag := tag) (p := p) (left.trans firstFailure_nil)
  exact ⟨j, hj, id, kind, own.trans range⟩

/-! ### ERASE and RAW -/

theorem eraseUnit_eq (p : List Byte) : eraseUnit p = if byteAt p 4 = 1 then 65536 else 4096 := by
  simp only [eraseUnit, eraseIsBlock, decide_eq_true_eq]

theorem eraseSpec_range (p : List Byte) : (eraseSpec p).range =
    some { base := field p 0 4, length := if byteAt p 4 = 1 then 65536 else 4096 } := by rw [eraseSpec, eraseUnit_eq]

theorem eraseSpec_kind (p : List Byte) : (eraseSpec p).kind =
    if byteAt p 4 = 1 then .eraseBlock else .eraseSector := by
  simp only [eraseSpec, eraseIsBlock, decide_eq_true_eq]

theorem eraseSpec_not_program (p : List Byte) : (eraseSpec p).kind ≠ .program := by
  rw [eraseSpec_kind]
  split <;> decide

/-- The last check is a PROGRAM's alone. -/
theorem firstFailure_noBuffer {kind : JobKind} (h : kind ≠ .program) (b : Bool) :
    firstFailure [(kind = .program && b, .noBuffer)] = none := by
  rw [firstFailure_cons, decide_eq_false h]
  rfl

/-- A flag byte is the field of one byte. -/
theorem field_one (p : List Byte) (i : Nat) : field p i 1 = (byteAt p i).toNat := by
  rw [field, byteAt, List.getD_eq_getElem?_getD, ← List.head?_drop]
  cases p.drop i with
  | nil => rfl
  | cons b bs => simp [leNat]

theorem byteAt_eq_one_iff {p : List Byte} {i : Nat} : byteAt p i = 1 ↔ field p i 1 = 1 := by
  rw [field_one]
  exact ⟨fun h => congrArg BitVec.toNat h, fun h => BitVec.eq_of_toNat_eq h⟩

/-- A RAW has the whole array as its range if it modifies, else none (R58). -/
theorem rawSpec_range (p : List Byte) (s : State) : (rawSpec p s).range =
    if field p 0 1 = 1 then some { base := 0, length := s.capacity } else none := by
  simp only [rawSpec, rawJobOf, decide_eq_true_eq, byteAt_eq_one_iff]

theorem rawSpec_kind (p : List Byte) (s : State) : (rawSpec p s).kind = .raw := rfl

/-- Settles O34: the checks of R63 and R64 and then the common ones, each refusing with its status. -/
theorem eraseAndRawAreChecked : Obligations.EraseAndRawAreChecked := by
  intro l tag p s ho
  refine ⟨fun ht size => ?erase, fun ht => ?raw⟩
  case erase =>
    refine ⟨_, exec_request ht ho (by simp [wrongSize, fixedSize, size]), ?_⟩
    rw [bodyOf_jobAsked (d := eraseSpec p) (own := eraseChecks p s) (by rfl)]
    have refuses := jobRequest_refuses_taken (k := .erase) (l := l) (tag := tag) (p := p) (own := eraseChecks p s)
      (d := eraseSpec p) (s := s)
    dsimp only
    refine check_decides ho refuses _ rfl decide_eq_true_iff fun left => ?_
    refine check_decides ho refuses _ left decide_eq_true_iff fun left => ?_
    refine check_decides ho refuses _ left (by rw [eraseUnit_eq]; exact decide_eq_true_iff) fun left => ?_
    refine takenChecks_decide ho refuses _ _ left ?protects ?pins fun left => ?_
    case protects =>
      rw [eraseSpec_range]
      simp only [protects_iff, forbids_erase_iff]
    case pins =>
      rw [eraseSpec_range]
      exact pinsIn_iff
    rw [firstFailure_noBuffer (eraseSpec_not_program p)] at left
    obtain ⟨j, hj, id, kind, range⟩ := jobRequest_queues (k := .erase) (tag := tag) (p := p) left
    exact ⟨j, hj, id, range.trans (eraseSpec_range p), kind.trans (eraseSpec_kind p)⟩
  case raw =>
    refine ⟨_, exec_request ht ho (by rfl), ?_⟩
    rw [bodyOf_jobAsked (d := rawSpec p s) (own := rawChecks p s) (by rfl)]
    have refuses := jobRequest_refuses_taken (k := .raw) (l := l) (tag := tag) (p := p) (own := rawChecks p s)
      (d := rawSpec p s) (s := s)
    dsimp only
    refine check_decides ho refuses _ rfl decide_eq_true_iff fun left => ?_
    refine check_decides ho refuses _ left (by simp [or_assoc]) fun left => ?_
    refine check_decides ho refuses _ left (by simp) fun left => ?_
    refine check_decides ho refuses _ left decide_eq_true_iff fun left => ?_
    refine check_decides ho refuses _ left (by simp) fun left => ?_
    refine takenChecks_decide ho refuses _ _ left ?protects ?pins fun left => ?_
    case protects =>
      rw [rawSpec_range, rawSpec_kind]
      split
      · next modifies => simpa only [modifies, true_and] using protects_raw_iff
      · next reads => simp [reads, State.protects]
    case pins =>
      rw [rawSpec_range]
      split
      · next modifies => simpa only [modifies, true_and] using pinsIn_iff
      · next reads => simp [reads, State.pinsIn]
    rw [firstFailure_noBuffer (by rw [rawSpec_kind]; decide)] at left
    obtain ⟨j, hj, id, kind, range⟩ := jobRequest_queues (k := .raw) (tag := tag) (p := p) left
    exact ⟨j, hj, id, kind, range.trans (rawSpec_range p s)⟩

end Sys2Proof.Machine
end

section
/-! PROOFS. CANCEL_JOB: a QUEUED job ends without being run, and the end of its hold releases a READ (R69, R72, R87). -/

namespace Sys2Proof.Machine

/-! ### The end of a job at any place of the queue -/

/-- The job at a place has left the queue, with its history entry, its count and its buffer free: steps 1 to 5 of R69. -/
def State.jobLeft (s : State) (i : Nat) (j : Job) (o : Status) : State :=
  { s with
    jq := { s.jq with jobs := s.jq.jobs.eraseIdx i, history := appendHistory s.jq.history (j.entry o) }
    fsq := { s.fsq with burst := if i = 0 then 0 else s.fsq.burst }
    staging := (s.freeStaging j).staging
    counters := s.counters.countJob o }

/-- The notice stands too; the PARKED records are still to be re-examined: steps 1 to 6 of R69. -/
def State.jobNotified (s : State) (i : Nat) (j : Job) (o : Status) : State := (s.jobLeft i j o).notifyJob j o

theorem endJob_at {s : State} {i : Nat} {j : Job} (job : s.jq.jobs[i]? = some j) (o : Status) : s.endJob i o =
    if j.range.isSome = true then (s.jobNotified i j o).reexamine else s.jobNotified i j o := by
  have notice : ∀ u : State, u.notifyJob { j with outcome := some o } o = u.notifyJob j o := fun _ => rfl
  unfold State.endJob
  simp only [job, Option.getD_some, notice]
  by_cases first : i = 0 <;> cases hs : j.staging <;> cases hr : j.range <;>
    simp [first, State.freeStaging, hs, State.updFsq, State.updCounters, State.jobNotified, State.jobLeft] <;> rfl

theorem jobNotified_places (s : State) (i : Nat) (j : Job) (o : Status) :
    OnlyPlaces (s.jobLeft i j o) (s.jobNotified i j o) := .notifyJob _ _ _

/-- The notice goes to the job's own link. -/
theorem jobNotified_link (s : State) (i : Nat) (j : Job) (o : Status) (l : Link) : (s.jobNotified i j o).link l =
    if j.deliver = true ∧ j.origin = l then (s.link l).place j.session (jobDoneNotice j o) else s.link l := by
  have left : ∀ k, (s.jobLeft i j o).link k = s.link k := fun k => by cases k <;> rfl
  unfold State.jobNotified State.notifyJob
  cases deliver : j.deliver with
  | false => simp [left]
  | true =>
    by_cases own : j.origin = l
    · subst own
      simp [left]
    · simp [place_link_other _ _ _ _ _ (Ne.symm own), left, own]

/-! ### The re-examination -/

theorem reexamine_of_active {s : State} (h : ∀ r ∈ s.records, r.state = .active) : s.reexamine = s := by
  have none_parked : s.records.filter (fun r => r.state = .parked) = [] := List.filter_eq_nil_iff.mpr fun r hr => by
    simp [h r hr]
  rw [State.reexamine, none_parked]
  rfl

section OneParked

variable {s : State} {r : Record} (records : s.records = [r]) (parked : r.state = .parked)
include records parked

/-- The one PARKED record stays so where another hold overlaps it. -/
theorem reexamine_held (held : s.overlapsHold r.range = true) : s.reexamine = s := by
  have last : s.HasLast [] r := ⟨records, fun _ mem => absurd mem List.not_mem_nil⟩
  simp [State.reexamine, records, parked, State.reexamineOne, record_of_last last, held]

/-- Else its one need is looked up. -/
theorem reexamine_released (needs : r.needs = [.waitRelease]) (free : s.overlapsHold r.range = false) :
    s.reexamine = (({ s with records := [{ r with state := .active }] } : State).lookup ⟨r.id, 0⟩).settle r.id := by
  have last : s.HasLast [] r := ⟨records, fun _ mem => absurd mem List.not_mem_nil⟩
  have released : s.reexamine = s.release r.id := by
    simp [State.reexamine, records, parked, State.reexamineOne, record_of_last last, free]
  have index : r.indexed .waitRelease = [0] := by simp [Record.indexed, needs]
  rw [released, State.release, record_of_last last]
  dsimp only
  rw [updRecord_of_last last, index]
  rfl

end OneParked

/-! ### A hit of a record that may still wait on an entry -/

theorem withdraw_withdraw (s : State) (id : RecordId) : (s.withdraw id).withdraw id = s.withdraw id :=
  withdraw_eq_self fun f hf w hw => by
    obtain ⟨g, -, rfl⟩ := List.mem_map.mp hf
    exact of_decide_eq_true (List.mem_filter.mp hw).2

/-- The pairs of a record that has its outcome may be withdrawn beforehand. -/
theorem settle_withdrawn {s : State} {rs : List Record} {r : Record} (h : s.HasLast rs r) (f : Record → Record)
    (own : (f r).id = r.id) (done : (f r).isComplete = true) :
    (s.updRecord r.id f).settle r.id = ((s.withdraw r.id).updRecord r.id f).settle r.id := by
  have settled : ∀ u : State, u.HasLast rs r → (u.updRecord r.id f).settle r.id =
      ({ u.withdraw r.id with records := rs } : State).place (f r).link (f r).session (f r).reply := fun u last => by
    have now : ({ u with records := rs ++ [f r] } : State).HasLast rs (f r) := ⟨rfl, fun q hq => own ▸ last.2 q hq⟩
    rw [updRecord_of_last last, ← own, settle_of_last now done]
    rfl
  rw [settled s h, settled (s.withdraw r.id) (h.of_records rfl), withdraw_withdraw]

/-- A READ of one line that hits is answered, and waits on no entry after it. -/
theorem settle_hit_read_withdrawn {s : State} {rs : List Record} {r : Record} (h : s.HasLast rs r) {n : NeedState}
    (hn : r.needs = [n]) (hk : r.kind = .read) (hst : r.status = .ok) (hb : r.buffer.length = r.length)
    (hr : r.base % 64 + r.length ≤ 64) {v : Fin 4} (hit : (s.set (setIndex r.base)).hit (cacheTag r.base) = some v) :
    (s.lookup ⟨r.id, 0⟩).settle r.id =
      ({ ((s.withdraw r.id).updSet (setIndex r.base) (fun c => c.toFront v)).countHit with records := rs } : State).place
        r.link r.session (replyMessage .read r.tag .ok
          (((((s.set (setIndex r.base)).ways[v]).bytes).drop (r.base % 64)).take r.length)) := by
  have hits : (s.set (setIndex (r.lineOf 0))).hit (cacheTag (r.lineOf 0)) = some v := by
    rw [setIndex_lineOf_zero rfl, cacheTag_lineOf_zero rfl]
    exact hit
  have withdrawn : (s.withdraw r.id).HasLast rs r := h.of_records rfl
  have unwaited : ∀ f ∈ (s.withdraw r.id).fills, ∀ w ∈ f.waiters, w.id ≠ r.id := fun f hf w hw => by
    obtain ⟨g, -, rfl⟩ := List.mem_map.mp hf
    exact of_decide_eq_true (List.mem_filter.mp hw).2
  have same : (s.lookup ⟨r.id, 0⟩).settle r.id = ((s.withdraw r.id).lookup ⟨r.id, 0⟩).settle r.id := by
    rw [lookup_hit_read h hk hits, lookup_hit_read withdrawn hk (v := v) hits, hitRead_eq, hitRead_eq]
    exact settle_withdrawn
      (s := (s.updSet (setIndex (r.lineOf 0)) (fun c => c.toFront v)).countHit) (h.of_records rfl) _ rfl
      (by simp [Record.isComplete, Record.setNeed, Record.copyLine, hk, hn])
  rw [same]
  exact settle_hit_read withdrawn hn hk hst hb hr unwaited hit

end Sys2Proof.Machine
end

section
/-! PROOFS. CANCEL_JOB as a request: what it refuses, and what the end of a QUEUED job leaves (R72). -/

namespace Sys2Proof.Machine

/-! ### The request -/

theorem cancelBody_unknown {q : Request} {s : State} (absent : s.placeOf (payloadId q.payload) = none) :
    cancelBody q s = q.refuse .cancelJob .unknownJob s := by simp only [cancelBody, absent]

theorem cancelBody_running {q : Request} {s : State} {i : Nat} {j : Job} (place : s.placeOf (payloadId q.payload) = some i)
    (job : s.jq.jobs[i]? = some j) (running : j.phase.isSome = true) :
    cancelBody q s = q.refuse .cancelJob .jobRunning s := by simp only [cancelBody, place, job, running, if_true]

theorem cancelBody_queued {q : Request} {s : State} {i : Nat} {j : Job} (place : s.placeOf (payloadId q.payload) = some i)
    (job : s.jq.jobs[i]? = some j) (queued : j.phase = none) :
    cancelBody q s = s.afterCancel (q.accept .cancelJob q.payload (s.endJob i .cancelled)) i := by
  simp [cancelBody, place, job, queued]

/-- Where FSQ has nothing to do, or is not asked, the cancellation ends with the reply. -/
theorem afterCancel_eq_self {before after : State} {place : Nat}
    (h : place = 0 ∨ before.fills.length < after.fills.length → after.kick = after) :
    before.afterCancel after place = after := by
  unfold State.afterCancel
  split
  · next asked => exact h (by simpa using asked)
  · rfl

theorem kick_of_recovering {s : State} (h : s.fsq.state = .recovering) : s.kick = s := by
  unfold State.kick
  split
  · rfl
  · rw [h]

/-! ### Replies after the one of a taken frame -/

theorem afterTake_link_other (s : State) {k l : Link} (h : k ≠ l) : (s.afterTake l).link k = s.link k := by
  cases k <;> cases l
  · exact absurd rfl h
  · rfl
  · rfl
  · exact absurd rfl h

/-- The reply of a taken frame stands last. -/
theorem take_place_fifo (k : LinkState) (isOpen : k.isOpen = true) (m : Message) :
    (k.take.place k.session m).fifo = k.fifo ++ [m] := by
  simp [place_fifo, isOpen]

/-- A message that another slot was reserved for stands before it. -/
theorem take_place_place_fifo (k : LinkState) (isOpen : k.isOpen = true) {x : Byte} (held : x ∈ k.reserved) (n m : Message) :
    ((k.take.place x n).place k.session m).fifo = k.fifo ++ [n] ++ [m] := by
  have first : x ∈ k.take.reserved := by simp [held]
  have second : k.session ∈ (k.take.place x n).reserved := by
    rw [place_reserved, if_pos first, take_reserved, List.erase_append_left _ held]
    exact List.mem_append_right _ List.mem_cons_self
  rw [place_fifo, if_pos ⟨second, by simp [isOpen]⟩, place_fifo, if_pos ⟨first, isOpen⟩, take_fifo]

theorem freeStaging_afterTake (s : State) (l : Link) (j : Job) :
    ((s.afterTake l).freeStaging j).staging = (s.freeStaging j).staging := by
  unfold State.freeStaging
  split <;> simp

section Cancelled

variable {l : Link} {tag x y : Byte} {s : State} {i : Nat} {j : Job}

/-- The job has ended, before the re-examination of the PARKED records. -/
def State.jobCancelled (s : State) (l : Link) (i : Nat) (j : Job) : State := (s.afterTake l).jobNotified i j .cancelled

/-- The cancellation's reply. -/
def State.cancelReplied (s t : State) (l : Link) (tag x y : Byte) : State :=
  t.place l (s.link l).session (replyMessage .cancelJob tag .ok [x, y])

theorem jobCancelled_jq : (s.jobCancelled l i j).jq = { s.jq with
    jobs := s.jq.jobs.eraseIdx i, history := appendHistory s.jq.history (j.entry .cancelled) } := by
  rw [State.jobCancelled, (jobNotified_places _ _ _ _).jq, ← afterTake_jq s l]
  rfl

theorem jobCancelled_fsq : (s.jobCancelled l i j).fsq = { s.fsq with burst := if i = 0 then 0 else s.fsq.burst } := by
  rw [State.jobCancelled, (jobNotified_places _ _ _ _).fsq, ← afterTake_fsq s l]
  rfl

theorem jobCancelled_staging : (s.jobCancelled l i j).staging = (s.freeStaging j).staging := by
  rw [State.jobCancelled, (jobNotified_places _ _ _ _).staging, ← freeStaging_afterTake s l]
  rfl

theorem jobCancelled_readSide : ReadSideSame s (s.jobCancelled l i j) := by
  have placed := jobNotified_places (s.afterTake l) i j .cancelled
  exact ⟨placed.records.trans (afterTake_records s l), placed.cache.trans (afterTake_cache s l),
    placed.fills.trans (afterTake_fills s l)⟩

theorem jobCancelled_protection : (s.jobCancelled l i j).protection = s.protection :=
  (jobNotified_places _ _ _ _).protection.trans (afterTake_protection s l)

/-- A cancellation is counted as neither an OK nor a failed job (R70). -/
theorem jobCancelled_counters : (s.jobCancelled l i j).counters = s.counters :=
  (jobNotified_places _ _ _ _).counters.trans (afterTake_counters s l)

theorem jobCancelled_link (k : Link) : (s.jobCancelled l i j).link k = if j.deliver = true ∧ j.origin = k
    then ((s.afterTake l).link k).place j.session (jobDoneNotice j .cancelled) else (s.afterTake l).link k :=
  jobNotified_link _ _ _ _ _

/-- A QUEUED job is cancelled, and its hold's end is the end of a hold (R72, R87). -/
theorem exec_cancel (ht : s.takesRequest .cancelJob l tag [x, y] = true) (ho : (s.link l).isOpen = true)
    (place : s.placeOf (y ++ x) = some i) (job : s.jq.jobs[i]? = some j) (queued : j.phase = none) :
    exec (.cancelJob l.arrival tag [x, y]) s =
      .next ((s.afterTake l).afterCancel (s.cancelReplied ((s.afterTake l).endJob i .cancelled) l tag x y) i) := by
  refine (exec_request ht ho (by rfl)).trans (congrArg _ ?_)
  exact cancelBody_queued (by rw [afterTake_placeOf, payloadId_pair]; exact place) (by rw [afterTake_jq]; exact job) queued

theorem endJob_cancelled (job : s.jq.jobs[i]? = some j) : (s.afterTake l).endJob i .cancelled =
    if j.range.isSome = true then (s.jobCancelled l i j).reexamine else s.jobCancelled l i j :=
  endJob_at (by rw [afterTake_jq]; exact job) _

/-- With the port in use FSQ does nothing after the cancellation. -/
theorem exec_cancel_busy (ht : s.takesRequest .cancelJob l tag [x, y] = true) (ho : (s.link l).isOpen = true)
    (place : s.placeOf (y ++ x) = some i) (job : s.jq.jobs[i]? = some j) (queued : j.phase = none)
    (range : j.range.isSome = true) (busy : s.fsq.port.isSome = true) :
    exec (.cancelJob l.arrival tag [x, y]) s =
      .next (s.cancelReplied (s.jobCancelled l i j).reexamine l tag x y) := by
  obtain ⟨fsq, -⟩ := reexamine_only (s.jobCancelled l i j)
  rw [exec_cancel ht ho place job queued, endJob_cancelled job, if_pos range, afterCancel_eq_self fun _ => kick_of_port ?_]
  rw [State.cancelReplied, place_fsq, fsq, jobCancelled_fsq]
  exact busy

/-- With no record PARKED it creates no entry, so FSQ is asked only for the head, and then has nothing to begin. -/
theorem exec_cancel_alone (ht : s.takesRequest .cancelJob l tag [x, y] = true) (ho : (s.link l).isOpen = true)
    (place : s.placeOf (y ++ x) = some i) (job : s.jq.jobs[i]? = some j) (queued : j.phase = none)
    (active : ∀ r ∈ s.records, r.state = .active)
    (still : 0 < i ∨ s.fsq.port.isSome = true ∨ s.fsq.state = .recovering) :
    exec (.cancelJob l.arrival tag [x, y]) s = .next (s.cancelReplied (s.jobCancelled l i j) l tag x y) := by
  obtain ⟨records, -, fills⟩ := jobCancelled_readSide (s := s) (l := l) (i := i) (j := j)
  have ended : (s.afterTake l).endJob i .cancelled = s.jobCancelled l i j := by
    rw [endJob_cancelled job, reexamine_of_active (by rwa [records]), ite_self]
  have fsq : (s.cancelReplied (s.jobCancelled l i j) l tag x y).fsq =
      { s.fsq with burst := if i = 0 then 0 else s.fsq.burst } := by
    rw [State.cancelReplied, place_fsq, jobCancelled_fsq]
  rw [exec_cancel ht ho place job queued, ended, afterCancel_eq_self fun asked => ?_]
  obtain behind | busy | recovering := still
  · obtain head | created := asked
    · omega
    · rw [State.cancelReplied, place_fills, fills, afterTake_fills] at created
      omega
  · exact kick_of_port (by rw [fsq]; exact busy)
  · exact kick_of_recovering (by rw [fsq]; exact recovering)

/-- The notice, if it is to be delivered on the link, stands before the reply. -/
theorem cancelled_fifo (ho : (s.link l).isOpen = true)
    (held : j.deliver = true → j.session ∈ (s.link j.origin).reserved ∧ (s.link j.origin).isOpen = true) :
    ((s.cancelReplied (s.jobCancelled l i j) l tag x y).link l).fifo = (s.link l).fifo ++
      (if j.deliver = true ∧ j.origin = l then [jobDoneNotice j .cancelled] else []) ++
      [replyMessage .cancelJob tag .ok [x, y]] := by
  rw [State.cancelReplied, place_link, jobCancelled_link, afterTake_link]
  split
  · next own =>
    obtain ⟨deliver, rfl⟩ := own
    exact take_place_place_fifo _ ho (held deliver).1 _ _
  · rw [List.append_nil]
    exact take_place_fifo _ ho _

/-- On the other link the notice stands alone. -/
theorem cancelled_fifo_other
    (held : j.deliver = true → j.session ∈ (s.link j.origin).reserved ∧ (s.link j.origin).isOpen = true) :
    ((s.cancelReplied (s.jobCancelled l i j) l tag x y).link (otherLink l)).fifo = (s.link (otherLink l)).fifo ++
      (if j.deliver = true ∧ j.origin ≠ l then [jobDoneNotice j .cancelled] else []) := by
  have other : otherLink l ≠ l := by cases l <;> simp [otherLink]
  have origin : j.origin = otherLink l ↔ j.origin ≠ l := by cases l <;> cases j.origin <;> simp [otherLink]
  rw [State.cancelReplied, place_link_other _ _ _ _ _ other, jobCancelled_link, afterTake_other]
  simp only [origin]
  split
  · next own =>
    have held := held own.1
    rw [origin.mpr own.2] at held
    rw [place_fifo, if_pos held]
  · rw [List.append_nil]

/-! ### A PARKED READ at the end of the hold -/

/-- The holds left are those of the other jobs. -/
theorem jobCancelled_overlapsHold (r : Range) : (s.jobCancelled l i j).overlapsHold r =
    (s.jq.jobs.eraseIdx i).any (fun q => match q.range with
      | some o => shareLine o r
      | none => false) := by
  rw [State.overlapsHold, State.holds, jobCancelled_jq, List.any_filterMap]
  congr 1
  funext q
  cases q.range with
  | none => rfl
  | some o => exact shareLine_comm r o

/-- The one record is ACTIVE again, and its need is still to be looked up. -/
def State.jobReleased (s : State) (l : Link) (i : Nat) (j : Job) (r : Record) : State :=
  { s.jobCancelled l i j with records := [{ r with state := .active }] }

section Released

variable {r : Record}

theorem jobReleased_last : (s.jobReleased l i j r).HasLast [] { r with state := .active } :=
  ⟨rfl, fun _ mem => absurd mem List.not_mem_nil⟩

theorem jobReleased_set (k : Fin 128) : (s.jobReleased l i j r).set k = s.set k :=
  set_eq_of_cache (s := s) (t := s.jobReleased l i j r) jobCancelled_readSide.2.1 k

theorem jobReleased_fills : (s.jobReleased l i j r).fills = s.fills :=
  (jobCancelled_readSide (s := s) (l := l) (i := i) (j := j)).2.2

theorem jobReleased_fsq : (s.jobReleased l i j r).fsq = { s.fsq with burst := if i = 0 then 0 else s.fsq.burst } :=
  jobCancelled_fsq

theorem jobReleased_counters : (s.jobReleased l i j r).counters = s.counters := jobCancelled_counters

/-- The READ has been looked up and has hit, and its record is freed; its reply is still to be placed. -/
def State.jobReleasedHit (s : State) (l : Link) (i : Nat) (j : Job) (r : Record) (w : Fin 4) : State :=
  { (((s.jobReleased l i j r).withdraw r.id).updSet (setIndex r.base) (fun c => c.toFront w)).countHit with records := [] }

theorem jobReleasedHit_set (w : Fin 4) : (s.jobReleasedHit l i j r w).set (setIndex r.base) =
    (s.set (setIndex r.base)).toFront w := by
  have cache : (s.jobReleasedHit l i j r w).cache =
      (((s.jobReleased l i j r).withdraw r.id).updSet (setIndex r.base) (fun c => c.toFront w)).cache := rfl
  have withdrawn : ((s.jobReleased l i j r).withdraw r.id).set (setIndex r.base) = (s.jobReleased l i j r).set _ := rfl
  rw [set_eq_of_cache cache, updSet_set, withdrawn, jobReleased_set]

theorem jobReleasedHit_counters (w : Fin 4) : (s.jobReleasedHit l i j r w).counters =
    { s.counters with lookupHit := s.counters.lookupHit + 1 } := by
  rw [← jobReleased_counters (s := s) (l := l) (i := i) (j := j) (r := r)]
  rfl

theorem jobReleasedHit_linksSame (w : Fin 4) : LinksSame (s.jobCancelled l i j) (s.jobReleasedHit l i j r w) := by
  unfold State.jobReleasedHit State.jobReleased
  generalize s.jobCancelled l i j = t
  exact ⟨rfl, rfl, rfl, rfl, rfl, rfl⟩

theorem jobReleased_entered_fills : ((s.jobReleased l i j r).entered [] { r with state := .active }).fills =
    s.fills ++ [newFill r.link r.tag r.base (s.set (setIndex r.base)).victim] := by
  rw [entered_fills, setIndex_lineOf_zero (r := { r with state := .active }) (a := r.base) rfl, lineOf_zero, jobReleased_set,
    jobReleased_fills]
  rfl

theorem jobReleased_entered_lookupMiss : ((s.jobReleased l i j r).entered [] { r with state := .active }).counters.lookupMiss =
    s.counters.lookupMiss + 1 := by
  rw [← jobReleased_counters (s := s) (l := l) (i := i) (j := j) (r := r)]
  rfl

variable (records : s.records = [r]) (parked : r.state = .parked) (kind : r.kind = .read) (needs : r.needs = [.waitRelease])
  (free : (s.jobCancelled l i j).overlapsHold r.range = false)
include records parked kind needs free

/-- A READ that is released and misses creates the entry of its line (R44, R87). -/
theorem reexamine_creates (miss : (s.set (setIndex r.base)).hit (cacheTag r.base) = none) (running : s.fsq.state ≠ .faulted)
    (fresh : ∀ f ∈ s.fills, f.line ≠ lineAddress r.base) (room : s.fills.length < 8) :
    (s.jobCancelled l i j).reexamine = (s.jobReleased l i j r).entered [] { r with state := .active } := by
  have last := jobReleased_last (s := s) (l := l) (i := i) (j := j) (r := r)
  rw [reexamine_released (jobCancelled_readSide.1.trans records) parked needs free]
  refine (returnToLookup_looks last fun _ => free).symm.trans (returnToLookup_creates last needs ?_ (fun _ => free) ?_ ?_ ?_
    ?_ (.inl kind))
  · exact fun _ mem => absurd mem List.not_mem_nil
  · rw [jobReleased_set]
    exact miss
  · rw [jobReleased_fsq]
    exact running
  · rw [jobReleased_fills]
    exact fresh
  · rw [jobReleased_fills]
    exact room

/-- One that hits is answered (R36, R87). -/
theorem reexamine_answers (status : r.status = .ok) (buffer : r.buffer = List.replicate r.length none)
    (oneLine : r.base % 64 + r.length ≤ 64) {w : Fin 4} (hit : (s.set (setIndex r.base)).hit (cacheTag r.base) = some w) :
    (s.jobCancelled l i j).reexamine = (s.jobReleasedHit l i j r w).place r.link r.session (replyMessage .read r.tag .ok
      (((((s.set (setIndex r.base)).ways[w]).bytes).drop (r.base % 64)).take r.length)) := by
  have last := jobReleased_last (s := s) (l := l) (i := i) (j := j) (r := r)
  have size : r.buffer.length = r.length := by rw [buffer, List.length_replicate]
  rw [reexamine_released (jobCancelled_readSide.1.trans records) parked needs free]
  refine (settle_hit_read_withdrawn (v := w) last needs kind status size oneLine ?_).trans ?_
  · rw [jobReleased_set]
    exact hit
  · rw [jobReleased_set]
    rfl

end Released

/-- The READ's reply stands before the cancellation's, where no JOB_DONE is to be delivered. -/
theorem released_fifo {t : State} (ho : (s.link l).isOpen = true) (links : LinksSame (s.afterTake l) t) {k : Link} {z : Byte}
    (held : z ∈ (s.link k).reserved) (isOpen : (s.link k).isOpen = true) (m : Message) :
    ((s.cancelReplied (t.place k z m) l tag x y).link k).fifo =
      (s.link k).fifo ++ [m] ++ (if k = l then [replyMessage .cancelJob tag .ok [x, y]] else []) := by
  rw [State.cancelReplied]
  split
  · next own =>
    subst own
    rw [place_link, place_link, links.link, afterTake_link]
    exact take_place_place_fifo _ ho held _ _
  · next other =>
    rw [place_link_other _ _ _ _ _ other, place_link, links.link, afterTake_link_other s other, place_fifo,
      if_pos ⟨held, isOpen⟩, List.append_nil]

/-- A job whose notice is suppressed places nothing. -/
theorem jobCancelled_linksSame (suppressed : j.deliver = false) : LinksSame (s.afterTake l) (s.jobCancelled l i j) := by
  simp only [State.jobCancelled, State.jobNotified, State.notifyJob, suppressed]
  exact ⟨rfl, rfl, rfl, rfl, rfl, rfl⟩

end Cancelled

/-- Settles O35: an id that is unknown or RUNNING is refused; a QUEUED job's end leaves what R69 says, and the READ that
waited for it is looked up if nothing else holds its line. -/
theorem cancelEndsAQueuedJob : Obligations.CancelEndsAQueuedJob := by
  intro l tag x y s ht ho
  have run := exec_request ht ho (show wrongSize .cancelJob [x, y] = false from rfl)
  dsimp only [bodyOf] at run
  refine ⟨fun absent => ⟨_, run, ?_⟩, fun i j job own first => ?_⟩
  · rw [cancelBody_unknown (by rw [afterTake_placeOf, payloadId_pair]; exact placeOf_eq_none absent)]
    exact refused_at_once _ _ _ _ ho
  have place := placeOf_eq_some job own first
  refine ⟨fun running => ⟨_, run, ?_⟩, fun queued suspends busy active still held => ?_, ?_⟩
  · rw [cancelBody_running (by rw [afterTake_placeOf, payloadId_pair]; exact place) (by rw [afterTake_jq]; exact job) running]
    exact refused_at_once _ _ _ _ ho
  · have entry : j.entry .cancelled =
        { id := j.id, kind := j.kind, outcome := .cancelled, suspendCount := 0, busyTime := 0 } := by
      rw [Job.entry, suspends, busy]
    obtain ⟨records, cache, fills⟩ := jobCancelled_readSide (s := s) (l := l) (i := i) (j := j)
    refine ⟨_, exec_cancel_alone ht ho place job queued active still, ?_, ?_, ?_, ?_, ?_, ⟨?_, ?_, ?_⟩, ?_, ?_,
      cancelled_fifo ho held, cancelled_fifo_other held⟩
    · rw [State.cancelReplied, place_jq, jobCancelled_jq]
    · rw [State.cancelReplied, place_jq, jobCancelled_jq]
    · rw [State.cancelReplied, place_jq, jobCancelled_jq, entry]
    · rw [State.cancelReplied, place_staging, jobCancelled_staging]
    · rw [State.cancelReplied, place_counters, jobCancelled_counters]
    · rw [State.cancelReplied, place_records, records]
    · rw [State.cancelReplied, place_cache, cache]
    · rw [State.cancelReplied, place_fills, fills]
    · rw [State.cancelReplied, place_protection, jobCancelled_protection]
    · rw [State.cancelReplied, place_fsq, jobCancelled_fsq]
  · intro hold range r records queued parked kind needs buffer status oneLine port running held c
    have only := reexamine_only (s.jobCancelled l i j)
    have overlaps : (s.jobCancelled l i j).overlapsHold r.range = held := jobCancelled_overlapsHold r.range
    have unchanged := jobCancelled_readSide (s := s) (l := l) (i := i) (j := j)
    refine ⟨_, exec_cancel_busy ht ho place job queued (by rw [range]; rfl) port, ?_, fun stays => ?_,
      fun free miss fresh room => ?_, fun w hit free => ?_⟩
    · rw [State.cancelReplied, place_jq, only.2.1, jobCancelled_jq]
    · rw [reexamine_held (unchanged.1.trans records) parked (overlaps.trans stays), State.cancelReplied, ReadSideSame,
        place_records, place_cache, place_fills]
      exact unchanged
    · rw [reexamine_creates records parked kind needs (overlaps.trans free) miss running fresh room, State.cancelReplied,
        place_records, place_fills, place_counters]
      exact ⟨rfl, jobReleased_entered_fills, jobReleased_entered_lookupMiss⟩
    · rw [reexamine_answers records parked kind needs (overlaps.trans free) status buffer oneLine hit]
      refine ⟨?_, ?_, ?_, fun suppressed reserved isOpen => ?_⟩
      · rw [State.cancelReplied, place_records, place_records]
        rfl
      · rw [State.cancelReplied, place_set, place_set, jobReleasedHit_set]
        rfl
      · rw [State.cancelReplied, place_counters, place_counters, jobReleasedHit_counters]
      · have links := (jobCancelled_linksSame (l := l) (s := s) (i := i) suppressed).trans
          (jobReleasedHit_linksSame (r := r) w)
        exact released_fifo ho links reserved isOpen _

end Sys2Proof.Machine
end

section
/-! PROOFS. R82 and R83: what ways, entries and records owe to the holds, and which changes keep it. -/

namespace Sys2Proof.Machine

/-! ### What is owed -/

/-- A line lies in the range of a hold in force (R79, R82). -/
def State.Held (s : State) (a : Nat) : Prop := ∃ r ∈ s.holds, lineInRange a r = true

/-- A pair of record and line index is a need of a record in use (R41). -/
def State.HasNeed (s : State) (w : Waiter) : Prop := ∃ r ∈ s.records, r.id = w.id ∧ w.index < r.needs.length

/-- An entry is of a line, is doomed on a held one (R82), and its waiters are needs. -/
structure State.EntryOk (s : State) (f : Fill) : Prop where
  aligned : f.line % 64 = 0
  doomed : s.Held f.line → f.doomed = true
  waiters : ∀ w ∈ f.waiters, s.HasNeed w

/-- A record has a need for each line it spans, and spans no held line if it is a PIN (R83). -/
structure State.RecordOk (s : State) (r : Record) : Prop where
  sized : r.sized
  pin : r.kind = .pin → s.overlapsHold r.range = false

/-- R82 and R83 with what they rest on, one by one. -/
structure Guarded (s : State) : Prop where
  ways : ∀ (i : Fin 128) (w : Fin 4), (s.set i).ways[w].isValid = true → ¬ s.Held (wayLine i (s.set i).ways[w].tag)
  recency : RecencyOk s
  entries : ∀ f ∈ s.fills, s.EntryOk f
  records : ∀ r ∈ s.records, s.RecordOk r
  tags : TagsOk s
  ranges : ∀ r ∈ s.holds, 0 < r.length

theorem mem_holds {s : State} {r : Range} : r ∈ s.holds ↔ ∃ j ∈ s.jq.jobs, j.range = some r := by
  rw [State.holds, List.mem_filterMap]

theorem not_held_iff {s : State} {a : Nat} : ¬ s.Held a ↔ ∀ j ∈ s.jq.jobs, ∀ r, j.range = some r → lineInRange a r = false := by
  simp only [State.Held, mem_holds, not_exists, not_and, Bool.not_eq_true]
  exact ⟨fun h j hj r hr => h r ⟨j, hj, hr⟩, fun h r ⟨j, hj, hr⟩ => h j hj r hr⟩

/-- The invariant of O59 is the one that is kept here. -/
theorem guarded_iff {s : State} : Guarded s ↔ HoldOk s := by
  constructor
  · rintro ⟨ways, recency, entries, records, tags, ranges⟩
    refine ⟨fun j hj r hr => ⟨fun i w valid => not_held_iff.mp (ways i w valid) j hj r hr, fun f hf inside => ?_⟩,
      fun q hq => (records q hq).pin, recency, tags, fun f hf => (entries f hf).aligned, fun f hf => (entries f hf).waiters,
      fun r hr => (records r hr).sized, fun j hj r hr => ranges r (mem_holds.mpr ⟨j, hj, hr⟩)⟩
    exact (entries f hf).doomed ⟨r, mem_holds.mpr ⟨j, hj, hr⟩, inside⟩
  · rintro ⟨clear, pins, recency, tags, aligned, waiters, sized, ranges⟩
    refine ⟨fun i w valid => not_held_iff.mpr fun j hj r hr => (clear j hj r hr).1 i w valid, recency, fun f hf => ?_,
      fun r hr => ⟨sized r hr, pins r hr⟩, tags, fun r hr => ?_⟩
    · refine ⟨aligned f hf, fun ⟨r, hr, inside⟩ => ?_, waiters f hf⟩
      obtain ⟨j, hj, own⟩ := mem_holds.mp hr
      exact (clear j hj r own).2 f hf inside
    · obtain ⟨j, hj, own⟩ := mem_holds.mp hr
      exact ranges j hj r own

/-! ### Lines of a record -/

theorem lineInRange_iff {a : Nat} {r : Range} : lineInRange a r = true ↔ a < r.base + r.length ∧ r.base < a + 64 := by
  simp [lineInRange]

theorem shareLine_iff {r q : Range} : shareLine r q = true ↔
    lineAddress r.base ≤ lineAddress (q.base + q.length - 1) ∧ lineAddress q.base ≤ lineAddress (r.base + r.length - 1) := by
  simp [shareLine]

/-- A line of a record that lies in a range is a line that both span (R80). -/
theorem shareLine_of_lineOf {r : Record} (sized : r.sized) {i : Nat} (index : i < r.needs.length) {h : Range}
    (positive : 0 < h.length) (inside : lineInRange (r.lineOf i) h = true) : shareLine r.range h = true := by
  obtain ⟨length, needs⟩ := sized
  rw [needs, lineCount] at index
  rw [lineInRange_iff, Record.lineOf, lineAddress] at inside
  simp only [shareLine_iff, Record.range, lineAddress]
  omega

/-- No line of a record is held where no hold overlaps its range. -/
theorem Guarded.lineOf_not_held {s : State} (g : Guarded s) {r : Record} (hr : r ∈ s.records) {i : Nat}
    (index : i < r.needs.length) (free : s.overlapsHold r.range = false) : ¬ s.Held (r.lineOf i) := by
  rintro ⟨h, hh, inside⟩
  have shared := shareLine_of_lineOf (g.records r hr).sized index (g.ranges h hh) inside
  rw [State.overlapsHold, List.any_eq_false] at free
  exact free h hh shared

/-! ### What of a record stands while it is in use -/

/-- Link and tag, kind, range and number of needs: what no event changes of a record in use. -/
def Record.fixed (r : Record) : RecordId × RecordKind × Range × Nat := (r.id, r.kind, r.range, r.needs.length)

theorem fixed_eq_iff {q r : Record} :
    q.fixed = r.fixed ↔ q.id = r.id ∧ q.kind = r.kind ∧ q.range = r.range ∧ q.needs.length = r.needs.length := by
  simp only [Record.fixed, Prod.mk.injEq]

theorem setNeed_fixed (r : Record) (i : Nat) (n : NeedState) : (r.setNeed i n).fixed = r.fixed :=
  fixed_eq_iff.mpr ⟨rfl, rfl, rfl, List.length_set⟩

theorem sized_of_fixed {q r : Record} (e : q.fixed = r.fixed) (sized : q.sized) : r.sized := by
  obtain ⟨-, -, range, needs⟩ := fixed_eq_iff.mp e
  obtain ⟨base, length⟩ := Range.mk.inj range
  rw [Record.sized, ← base, ← length, ← needs]
  exact sized

theorem updRecord_fixed (s : State) (id : RecordId) {f : Record → Record} (fixed : ∀ q, (f q).fixed = q.fixed) :
    (s.updRecord id f).records.map Record.fixed = s.records.map Record.fixed := by
  show (s.records.map (fun r => if r.id = id then f r else r)).map Record.fixed = _
  rw [List.map_map]
  refine List.map_congr_left fun q _ => ?_
  rw [Function.comp_apply]
  split
  · exact fixed q
  · rfl

/-- Needs are needs of records, whatever these have got. -/
theorem HasNeed_of_fixed {s t : State} (e : t.records.map Record.fixed = s.records.map Record.fixed) {w : Waiter}
    (need : s.HasNeed w) : t.HasNeed w := by
  obtain ⟨r, hr, own, index⟩ := need
  obtain ⟨q, hq, same⟩ := List.mem_map.mp (e ▸ List.mem_map_of_mem hr)
  obtain ⟨id, -, -, needs⟩ := fixed_eq_iff.mp same
  exact ⟨q, hq, id.trans own, needs ▸ index⟩

/-- An entry whose line stands, that is still doomed if it was, and whose waiters are needs. -/
theorem State.EntryOk.of_entry {s t : State} {f g : Fill} (h : s.EntryOk g) (holds : t.holds ⊆ s.holds)
    (line : f.line = g.line) (doomed : g.doomed = true → f.doomed = true) (waiters : ∀ w ∈ f.waiters, t.HasNeed w) :
    t.EntryOk f :=
  ⟨line ▸ h.aligned, fun ⟨r, hr, inside⟩ => doomed (h.doomed ⟨r, holds hr, line ▸ inside⟩), waiters⟩

/-! ### Changes beside it -/

/-- What an entry is known by here: its line, its doomed flag and its waiters. -/
def Fill.owes (f : Fill) : Nat × Bool × List Waiter := (f.line, f.doomed, f.waiters)

/-- What R82 and R83 speak of: the records, the ways, the entries and the holds. -/
def State.holdSide (s : State) : List Record × Vector CacheSet 128 × List (Nat × Bool × List Waiter) × List Range :=
  (s.records, s.cache, s.fills.map Fill.owes, s.holds)

theorem overlapsHold_of_subset {s t : State} (holds : t.holds ⊆ s.holds) {r : Range} (free : s.overlapsHold r = false) :
    t.overlapsHold r = false := by
  rw [State.overlapsHold, List.any_eq_false] at *
  exact fun h hh => free h (holds hh)

/-- Records, ways and entries stand, and no hold is new. -/
theorem Guarded.of_holds {s t : State} (g : Guarded s) (records : t.records = s.records) (cache : t.cache = s.cache)
    (fills : t.fills.map Fill.owes = s.fills.map Fill.owes) (holds : t.holds ⊆ s.holds) : Guarded t := by
  have same := set_eq_of_cache cache
  refine ⟨fun i w valid held => ?_, fun i => same i ▸ g.recency i, fun f hf => ?_, fun r hr => ?_, ?_,
    fun r hr => g.ranges r (holds hr)⟩
  · obtain ⟨r, hr, inside⟩ := held
    rw [same] at valid inside
    exact g.ways i w valid ⟨r, holds hr, inside⟩
  · obtain ⟨e, he, owes⟩ := List.mem_map.mp (fills ▸ List.mem_map_of_mem hf)
    simp only [Fill.owes, Prod.mk.injEq] at owes
    obtain ⟨line, doomed, waiters⟩ := owes
    have ok := g.entries e he
    exact ok.of_entry holds line.symm (fun h => doomed ▸ h) fun w hw =>
      HasNeed_of_fixed (by rw [records]) (ok.waiters w (waiters ▸ hw))
  · have ok := g.records r (records ▸ hr)
    exact ⟨ok.sized, fun pin => overlapsHold_of_subset holds (ok.pin pin)⟩
  · rw [TagsOk, records]
    exact g.tags

/-- All that R82 and R83 speak of stands. -/
theorem Guarded.of_same {s t : State} (g : Guarded s) (same : t.holdSide = s.holdSide) : Guarded t := by
  simp only [State.holdSide, Prod.mk.injEq] at same
  obtain ⟨records, cache, fills, holds⟩ := same
  exact g.of_holds records cache fills (holds ▸ List.Subset.refl _)

/-- Nothing is held where every table is empty. -/
theorem Guarded.of_empty {s : State} (records : s.records = []) (fills : s.fills = []) (jobs : s.jq.jobs = [])
    (sets : ∀ i : Fin 128, s.set i = .reset) : Guarded s := by
  have holds : s.holds = [] := by rw [State.holds, jobs]; rfl
  refine ⟨fun i w valid => ?_, fun i => sets i ▸ reset_recencyOk, fun f hf => ?_, fun r hr => ?_, ?_, fun r hr => ?_⟩
  · rw [sets, reset_way] at valid
    cases valid
  · rw [fills] at hf; cases hf
  · rw [records] at hr; cases hr
  · rw [TagsOk, records]; exact List.nodup_nil
  · rw [holds] at hr; cases hr

end Sys2Proof.Machine
end

section
/-! PROOFS. R82 and R83 over the read path: lookups, completion, parking and the end of entries keep what is owed, and no record
joins or changes its range. -/

namespace Sys2Proof.Machine

/-! ### Records by their names -/

/-- The index of a waiter is one of its record's needs, while the record is in use. -/
def State.Awaits (s : State) (w : Waiter) : Prop := ∀ r ∈ s.records, r.id = w.id → w.index < r.needs.length

/-- No hold overlaps the range of the record with a name. -/
def State.Unheld (s : State) (id : RecordId) : Prop := ∀ r ∈ s.records, r.id = id → s.overlapsHold r.range = false

theorem record_eq_some {s : State} {id : RecordId} {r : Record} (h : s.record id = some r) : r ∈ s.records ∧ r.id = id :=
  ⟨List.mem_of_find?_eq_some h, by simpa only [decide_eq_true_eq] using List.find?_some h⟩

/-- Records are the same where their names are (R24). -/
theorem record_eq_of_id {s : State} (tags : TagsOk s) {q r : Record} (hq : q ∈ s.records) (hr : r ∈ s.records)
    (e : q.id = r.id) : q = r := List.inj_on_of_nodup_map tags hq hr e

theorem awaits_of_need {s : State} (tags : TagsOk s) {w : Waiter} (need : s.HasNeed w) : s.Awaits w := by
  obtain ⟨r, hr, own, index⟩ := need
  exact fun q hq e => record_eq_of_id tags hr hq (own.trans e.symm) ▸ index

theorem unheld_of_record {s : State} (tags : TagsOk s) {r : Record} (hr : r ∈ s.records)
    (free : s.overlapsHold r.range = false) : s.Unheld r.id :=
  fun _ hq e => record_eq_of_id tags hr hq e.symm ▸ free

/-- A need that is in some state is a need of its record. -/
theorem hasNeed_of_needIs {s : State} {w : Waiter} {n : NeedState} (h : s.needIs w n = true) : s.HasNeed w := by
  unfold State.needIs at h
  split at h
  · next r found =>
    obtain ⟨hr, own⟩ := record_eq_some found
    obtain ⟨index, -⟩ := List.getElem?_eq_some_iff.mp (of_decide_eq_true h)
    exact ⟨r, hr, own, index⟩
  · cases h

theorem hasNeed_of_slotQueue {s : State} {w : Waiter} (h : w ∈ s.slotQueue) : s.HasNeed w := by
  obtain ⟨r, hr, own⟩ := List.mem_flatMap.mp h
  obtain ⟨i, hi, rfl⟩ := List.mem_map.mp own
  obtain ⟨index, -⟩ := List.getElem?_eq_some_iff.mp (mem_indexed.mp hi)
  exact ⟨r, hr, rfl, index⟩

/-! ### Ways that become VALID -/

/-- A way that gets what is not VALID, or what a VALID way with its tag had, makes no other line VALID. -/
theorem putLine_staysValid (c : CacheSet) (v : Fin 4) {x : Line} (h : x.StaysValid c.ways[v]) (w : Fin 4) :
    (c.putLine v x).ways[w].StaysValid c.ways[w] := by
  by_cases e : v = w
  · subst e; rw [putLine_self]; exact h
  · rw [putLine_other _ _ _ _ e]; exact .refl _

theorem staysValid_of_not_valid {x y : Line} (h : x.isValid = false) : x.StaysValid y := fun valid => by
  rw [h] at valid
  cases valid

theorem pinWay_staysValid (c : CacheSet) (v w : Fin 4) : (c.pinWay v).ways[w].StaysValid c.ways[w] :=
  putLine_staysValid (c.toFront v) v
    (fun valid => ⟨(withPinned_isValid _ true).symm.trans valid, (withPinned_tag _ true).symm⟩) w

/-! ### What the read path keeps -/

/-- A state reached from another on the read path: all that is owed is kept, the holds stand, and the records are some of those
that there were, with their names, ranges and numbers of needs. -/
structure Onward (s t : State) : Prop where
  guarded : Guarded t
  holds : t.holds = s.holds
  records : (t.records.map Record.fixed).Sublist (s.records.map Record.fixed)

theorem held_of_holds {s t : State} (holds : t.holds = s.holds) (a : Nat) : t.Held a ↔ s.Held a := by
  rw [State.Held, holds, State.Held]

namespace Onward

variable {s t u : State}

theorem refl (g : Guarded s) : Onward s s := ⟨g, rfl, .refl _⟩

theorem trans (h : Onward s t) (g : Onward t u) : Onward s u := ⟨g.guarded, g.holds.trans h.holds, g.records.trans h.records⟩

theorem record (h : Onward s t) {r : Record} (hr : r ∈ t.records) : ∃ q ∈ s.records, q.fixed = r.fixed :=
  List.mem_map.mp (h.records.subset (List.mem_map_of_mem hr))

theorem awaits (h : Onward s t) {w : Waiter} (aw : s.Awaits w) : t.Awaits w := by
  intro r hr own
  obtain ⟨q, hq, e⟩ := h.record hr
  obtain ⟨id, -, -, needs⟩ := fixed_eq_iff.mp e
  exact needs ▸ aw q hq (id.trans own)

theorem unheld (h : Onward s t) {id : RecordId} (un : s.Unheld id) : t.Unheld id := by
  intro r hr own
  obtain ⟨q, hq, e⟩ := h.record hr
  obtain ⟨same, -, range, -⟩ := fixed_eq_iff.mp e
  exact overlapsHold_of_subset (h.holds ▸ List.Subset.refl _) (range ▸ un q hq (same.trans own))

/-- One operation more. -/
theorem next (h : Onward s t) (holds : u.holds = t.holds)
    (records : (u.records.map Record.fixed).Sublist (t.records.map Record.fixed)) (recency : RecencyOk u)
    (ways : ∀ (i : Fin 128) (w : Fin 4), (u.set i).ways[w].isValid = true → ¬ t.Held (wayLine i (u.set i).ways[w].tag))
    (entries : ∀ f ∈ u.fills, u.EntryOk f) : Onward s u := by
  refine h.trans ⟨⟨fun i w valid => ?_, recency, entries, fun r hr => ?_, ?_, fun r hr => ?_⟩, holds, records⟩
  · rw [held_of_holds holds]
    exact ways i w valid
  · obtain ⟨q, hq, e⟩ := List.mem_map.mp (records.subset (List.mem_map_of_mem hr))
    obtain ⟨-, kind, range, -⟩ := fixed_eq_iff.mp e
    have ok := h.guarded.records q hq
    exact ⟨sized_of_fixed e ok.sized, fun pin =>
      overlapsHold_of_subset (holds ▸ List.Subset.refl _) (range ▸ ok.pin (kind.trans pin))⟩
  · have ids : ∀ rs : List Record, rs.map Record.id = (rs.map Record.fixed).map Prod.fst := fun rs => by
      rw [List.map_map]
      rfl
    have tags := h.guarded.tags
    rw [TagsOk, ids] at *
    exact tags.sublist (records.map _)
  · exact h.guarded.ranges r (holds ▸ hr)

/-- A change of one set, in which the VALID ways were VALID with their tags or hold a line that is not held. -/
theorem updSet (h : Onward s t) (k : Fin 128) (g : CacheSet → CacheSet)
    (recency : (t.set k).recencyOk → (g (t.set k)).recencyOk)
    (ways : ∀ w : Fin 4, (g (t.set k)).ways[w].StaysValid (t.set k).ways[w] ∨
      ¬ t.Held (wayLine k (g (t.set k)).ways[w].tag)) : Onward s (t.updSet k g) := by
  refine h.next rfl (.refl _) (fun i => ?_) (fun i w valid => ?_) fun f hf => ?_
  · by_cases e : k = i
    · subst e; rw [updSet_set]; exact recency (h.guarded.recency k)
    · rw [updSet_set_other _ _ _ _ e]; exact h.guarded.recency i
  · by_cases e : k = i
    · subst e
      rw [updSet_set] at valid ⊢
      rcases ways w with stood | free
      · obtain ⟨old, tag⟩ := stood valid
        exact tag ▸ h.guarded.ways k w old
      · exact free
    · rw [updSet_set_other _ _ _ _ e] at valid ⊢
      exact h.guarded.ways i w valid
  · have ok := h.guarded.entries f hf
    exact ⟨ok.aligned, ok.doomed, ok.waiters⟩

/-- A change of what a record has got. -/
theorem updRecord (h : Onward s t) (id : RecordId) {f : Record → Record} (fixed : ∀ q, (f q).fixed = q.fixed) :
    Onward s (t.updRecord id f) := by
  have same := updRecord_fixed t id fixed
  refine h.next rfl (by rw [same]) h.guarded.recency h.guarded.ways fun e he => ?_
  have ok := h.guarded.entries e he
  exact ok.of_entry (List.Subset.refl _) rfl (fun x => x) fun w hw => HasNeed_of_fixed same (ok.waiters w hw)

theorem setNeed (h : Onward s t) (w : Waiter) (n : NeedState) : Onward s (t.setNeed w n) :=
  h.updRecord _ fun q => setNeed_fixed q _ _

/-- A change of the Fill Table alone. -/
theorem entries (h : Onward s t) (fs : List Fill) (ok : ∀ f ∈ fs, t.EntryOk f) : Onward s { t with fills := fs } :=
  h.next rfl (.refl _) h.guarded.recency h.guarded.ways fun f hf =>
    ⟨(ok f hf).aligned, (ok f hf).doomed, (ok f hf).waiters⟩

/-- Nothing changes that R82 and R83 speak of. -/
theorem of_same (h : Onward s t) (same : u.holdSide = t.holdSide) : Onward s u := by
  have g := h.guarded.of_same same
  simp only [State.holdSide, Prod.mk.injEq] at same
  obtain ⟨records, -, -, holds⟩ := same
  exact h.trans ⟨g, holds, by rw [records]⟩

theorem foldl {α : Type} {f : State → α → State} (h : Onward s t) (xs : List α)
    (step : ∀ (u : State) (x : α), x ∈ xs → Onward t u → Onward t (f u x)) : Onward s (xs.foldl f t) := by
  suffices ∀ u, Onward t u → Onward t (xs.foldl f u) from h.trans (this t (refl h.guarded))
  induction xs with
  | nil => exact fun _ hu => hu
  | cons x xs ih =>
    exact fun u hu => ih (fun v y hy => step v y (List.mem_cons_of_mem x hy)) _ (step u x List.mem_cons_self hu)

theorem place (h : Onward s t) (l : Link) (x : Byte) (m : Message) : Onward s (t.place l x m) :=
  h.of_same (by simp [State.holdSide, State.holds])

/-! ### Records and entries -/

theorem dropClaim (h : Onward s t) (a : Nat) : Onward s (t.dropClaim a) := by
  unfold State.dropClaim
  exact h.updSet _ _ (fun x => x) fun _ => .inl (.refl _)

theorem addClaim (h : Onward s t) (a : Nat) : Onward s (t.addClaim a) := by
  unfold State.addClaim
  exact h.updSet _ _ (fun x => x) fun _ => .inl (.refl _)

/-- A record goes with its waiters (R55). -/
theorem freeRecord (h : Onward s t) (id : RecordId) :
    Onward s { t.withdraw id with records := t.records.filter (fun q => q.id ≠ id) } := by
  refine h.next rfl (List.filter_sublist.map _) h.guarded.recency h.guarded.ways fun f hf => ?_
  obtain ⟨e, he, rfl⟩ := List.mem_map.mp hf
  have ok := h.guarded.entries e he
  refine ok.of_entry (List.Subset.refl _) rfl (fun x => x) fun w hw => ?_
  obtain ⟨old, other⟩ := List.mem_filter.mp hw
  obtain ⟨r, hr, own, index⟩ := ok.waiters w old
  exact ⟨r, List.mem_filter.mpr ⟨hr, own ▸ other⟩, own, index⟩

theorem withdraw (h : Onward s t) (id : RecordId) : Onward s (t.withdraw id) := by
  refine h.entries _ fun f hf => ?_
  obtain ⟨e, he, rfl⟩ := List.mem_map.mp hf
  have ok := h.guarded.entries e he
  exact ok.of_entry (List.Subset.refl _) rfl (fun x => x) fun w hw => ok.waiters w (List.mem_of_mem_filter hw)

theorem removeFill (h : Onward s t) (a : Nat) : Onward s (t.removeFill a) :=
  h.entries _ fun f hf => h.guarded.entries f (List.mem_of_mem_filter hf)

/-! ### Lookups -/

theorem hitRead (h : Onward s t) (r : Record) (i : Nat) (v : Fin 4) : Onward s (t.hitRead r i v) := by
  have moved := h.updSet (setIndex (r.lineOf i)) (fun c => c.toFront v) (fun ok => toFront_recencyOk ok v) fun _ => .inl (.refl _)
  exact (moved.updRecord r.id fun q => setNeed_fixed (q.copyLine i _) i .haveLine).of_same rfl

theorem hitPin (h : Onward s t) (r : Record) (i : Nat) (v : Fin 4) : Onward s (t.hitPin r i v) := by
  have pinned := h.updSet (setIndex (r.lineOf i)) (fun c => c.pinWay v) (fun ok => toFront_recencyOk ok v) fun w =>
    .inl (pinWay_staysValid _ v w)
  rw [hitPin_eq]
  exact (pinned.of_same (by rfl)).updRecord _ (by intro q; exact setNeed_fixed q i .haveLine)

theorem failNeed (h : Onward s t) (w : Waiter) : Onward s (t.failNeed w) := by
  unfold State.failNeed
  split
  · exact h
  · have failed : Onward s (t.updRecord w.id (fun q => { q.setNeed w.index .failed with status := .flashFault })) :=
      h.updRecord _ fun q => setNeed_fixed q w.index .failed
    dsimp only
    split
    · exact failed
    · exact failed.dropClaim _

theorem attach (h : Onward s t) (a : Nat) {w : Waiter} (need : t.HasNeed w) : Onward s (t.attach a w) := by
  have entered : Onward s (t.updFill a (fun f => { f with waiters := f.waiters ++ [w] })) := by
    refine h.entries _ fun f hf => ?_
    obtain ⟨e, he, rfl⟩ := List.mem_map.mp hf
    have ok := h.guarded.entries e he
    split
    · refine ok.of_entry (List.Subset.refl _) rfl (fun x => x) fun v hv => ?_
      rcases List.mem_append.mp hv with old | new
      · exact ok.waiters v old
      · exact List.mem_singleton.mp new ▸ need
    · exact ok
  exact (entered.setNeed w .waitFill).of_same rfl

/-- Needs stay needs as others attach. -/
theorem attachAll (a : Nat) (ws : List Waiter) (needs : ∀ w ∈ ws, t.HasNeed w) (h : Onward s t) :
    Onward s (ws.foldl (fun t w => t.attach a w) t) := by
  induction ws generalizing t with
  | nil => exact h
  | cons w ws ih =>
    refine ih (fun v hv => ?_) (h.attach a (needs w List.mem_cons_self))
    exact HasNeed_of_fixed (updRecord_fixed _ _ fun q => setNeed_fixed q w.index .waitFill)
      (needs v (List.mem_cons_of_mem w hv))

theorem gather (h : Onward s t) (a : Nat) : Onward s (t.gather a) :=
  h.attachAll a _ fun _ hw => hasNeed_of_slotQueue (List.mem_of_mem_filter hw)

/-- An entry is created for a line that is not held, so it need not be doomed (R44, R82). -/
theorem createFill (h : Onward s t) {a : Nat} (aligned : a % 64 = 0) (free : ¬ t.Held a) (v : Option (Fin 4)) {w : Waiter}
    (need : t.HasNeed w) : Onward s (t.createFill a v w) := by
  have entered : Onward s { t with fills := t.fills ++ [freshFill a v w] } := by
    refine h.entries _ fun f hf => ?_
    rcases List.mem_append.mp hf with old | new
    · exact h.guarded.entries f old
    · rw [List.mem_singleton.mp new]
      exact ⟨aligned, fun held => absurd held free, fun x hx => List.mem_singleton.mp hx ▸ need⟩
  exact (entered.setNeed w _).gather a

theorem missCreate (h : Onward s t) (r : Record) {w : Waiter} (need : t.HasNeed w) (free : ¬ t.Held (r.lineOf w.index)) :
    Onward s (t.missCreate r w) := by
  unfold State.missCreate
  dsimp only
  split
  · next v _ =>
    have allocated : Onward s (t.updSet (setIndex (r.lineOf w.index)) (fun c => c.allocate v (cacheTag (r.lineOf w.index)))) :=
      h.updSet _ _ (fun ok => ok) fun x => .inl (putLine_staysValid _ v (staysValid_of_not_valid rfl) x)
    exact allocated.createFill (lineOf_aligned r _) free _ need
  · split
    · exact (h.createFill (lineOf_aligned r _) free _ need).of_same rfl
    · exact h.setNeed _ _

theorem missNeed (h : Onward s t) (r : Record) {w : Waiter} (need : t.HasNeed w) (free : ¬ t.Held (r.lineOf w.index)) :
    Onward s (t.missNeed r w) := by
  have counted : Onward s t.countMiss := h.of_same rfl
  unfold State.missNeed
  dsimp only
  split_ifs
  · exact counted.failNeed w
  · exact counted.attach _ need
  · exact counted.missCreate r need free
  · exact counted.setNeed w _

/-- A lookup is made only for a need, and for a record that no hold overlaps. -/
theorem lookup (h : Onward s t) {w : Waiter} (aw : t.Awaits w) (un : t.Unheld w.id) : Onward s (t.lookup w) := by
  unfold State.lookup
  split
  · exact h
  · next r found =>
    obtain ⟨hr, own⟩ := record_eq_some found
    have index := aw r hr own
    dsimp only
    split
    · split
      · exact h.hitRead _ _ _
      · exact h.hitPin _ _ _
    · exact h.missNeed r ⟨r, hr, own, index⟩ (h.guarded.lineOf_not_held hr index (un r hr own))

theorem lookups (h : Onward s t) {id : RecordId} {is : List Nat} (aw : ∀ i ∈ is, t.Awaits ⟨id, i⟩) (un : t.Unheld id) :
    Onward s (t.lookups id is) :=
  h.foldl is fun _ i hi hu => hu.lookup (hu.awaits (aw i hi)) (hu.unheld un)

/-! ### Completion, parking, release -/

theorem settle (h : Onward s t) (id : RecordId) : Onward s (t.settle id) := by
  unfold State.settle
  split
  · exact h
  · split
    · exact (h.freeRecord _).place _ _ _
    · exact h

theorem park (h : Onward s t) (id : RecordId) : Onward s (t.park id) := by
  unfold State.park
  exact (h.updRecord id (by intro q; exact fixed_eq_iff.mpr ⟨rfl, rfl, rfl, List.length_map _⟩)).withdraw id

/-- A READ over a hold parks, and no hold overlaps a PIN's range: so no line that is looked up is held (R53, R83, R85). -/
theorem returnToLookup (h : Onward s t) {w : Waiter} (aw : t.Awaits w) : Onward s (t.returnToLookup w) := by
  unfold State.returnToLookup
  split
  · exact h
  · next r found =>
    obtain ⟨hr, own⟩ := record_eq_some found
    split
    · exact h.park _
    · next stays =>
      have free : t.overlapsHold r.range = false := by
        cases kind : r.kind with
        | read => simpa [kind] using stays
        | pin => exact (h.guarded.records r hr).pin kind
      exact (h.lookup aw (own ▸ unheld_of_record h.guarded.tags hr free)).settle _

/-- A PARKED record is released once no hold overlaps its range (R87). -/
theorem release (h : Onward s t) {r : Record} (hr : r ∈ t.records) (free : t.overlapsHold r.range = false) :
    Onward s (t.release r.id) := by
  unfold State.release
  split
  · exact h
  · next q found =>
    obtain ⟨hq, own⟩ := record_eq_some found
    have active : Onward t (t.updRecord r.id (fun q => { q with state := .active })) :=
      (refl h.guarded).updRecord _ fun _ => rfl
    refine h.trans ((active.lookups (fun i hi => active.awaits ?_)
      (active.unheld (unheld_of_record h.guarded.tags hr free))).settle _)
    obtain ⟨index, -⟩ := List.getElem?_eq_some_iff.mp (mem_indexed.mp hi)
    exact awaits_of_need h.guarded.tags ⟨q, hq, own, index⟩

theorem reexamine (h : Onward s t) : Onward s t.reexamine := by
  refine h.foldl _ fun u id _ hu => ?_
  unfold State.reexamineOne
  split
  · exact hu
  · next r found =>
    obtain ⟨hr, rfl⟩ := record_eq_some found
    split
    · next released =>
      rw [Bool.and_eq_true, Bool.not_eq_true'] at released
      exact hu.release hr released.2
    · exact hu

/-! ### The end of an entry -/

theorem handSlots (h : Onward s t) (ws : List Waiter) : Onward s (handSlots ws t) := by
  induction ws generalizing t with
  | nil => exact h
  | cons w ws ih =>
    unfold Machine.handSlots
    split
    · next waits =>
      have need := hasNeed_of_needIs (Bool.and_eq_true _ _ ▸ waits).2
      have looked := h.returnToLookup (awaits_of_need h.guarded.tags need)
      dsimp only
      split
      · exact looked
      · exact ih looked
    · exact ih h

theorem retryWay (h : Onward s t) (w : Waiter) : Onward s (t.retryWay w) := by
  unfold State.retryWay
  split
  · next waits => exact h.returnToLookup (awaits_of_need h.guarded.tags (hasNeed_of_needIs waits))
  · exact h

theorem afterEnd (h : Onward s t) (a : Nat) : Onward s (t.afterEnd a) :=
  (h.handSlots _).foldl _ fun _ w _ hu => hu.retryWay w

theorem releaseWay (h : Onward s t) (f : Fill) : Onward s (t.releaseWay f) := by
  unfold State.releaseWay
  split
  · exact h
  · next v _ => exact h.updSet _ _ (fun ok => drop_recencyOk ok v) fun w => .inl (putLine_staysValid _ v (staysValid_of_not_valid rfl) w)

theorem deliver (h : Onward s t) (d : List Byte) (w : Waiter) : Onward s (t.deliver d w) := by
  unfold State.deliver
  split
  · exact h
  · split
    · exact (h.updRecord _ fun q => setNeed_fixed (q.copyLine w.index d) w.index .haveLine).settle _
    · exact ((h.dropClaim _).updRecord _ (by intro q; exact setNeed_fixed q w.index .haveLine)).settle _

theorem deliverBypass (h : Onward s t) (d : List Byte) {w : Waiter} (aw : t.Awaits w) : Onward s (t.deliverBypass d w) := by
  unfold State.deliverBypass
  split
  · exact h
  · split
    · exact h.deliver d w
    · exact h.returnToLookup aw

/-- The line of an entry that is not doomed is not held, so its way may become VALID (R50, R82). -/
theorem install (h : Onward s t) {f : Fill} (ok : t.EntryOk f) (live : f.doomed = false) (v : Fin 4) (p : Bool)
    (d : List Byte) : Onward s (t.updSet (setIndex f.line) (fun c => c.install v (cacheTag f.line) p d)) := by
  refine h.updSet _ _ (fun recency => install_recencyOk recency v _ _ _) fun w => ?_
  show (CacheSet.putLine _ v _).ways[w].StaysValid _ ∨ ¬ t.Held (wayLine _ (CacheSet.putLine _ v _).ways[w].tag)
  by_cases e : v = w
  · subst e
    rw [putLine_self]
    refine .inr fun held => ?_
    have doomed := ok.doomed (wayLine_of_line _ ok.aligned ▸ held)
    rw [live] at doomed
    cases doomed
  · rw [putLine_other _ _ _ _ e]
    exact .inl (.refl _)

/-- An entry's bytes arrive (R50 to R53). -/
theorem arrive (g : Guarded s) {f : Fill} (mem : f ∈ s.fills) (d : List Byte) : Onward s (s.arrive f d) := by
  have ok := g.entries f mem
  have here := refl g
  have aw : ∀ w ∈ f.waiters, s.Awaits w := fun w hw => awaits_of_need g.tags (ok.waiters w hw)
  unfold State.arrive
  split
  · have ended := (here.releaseWay f).removeFill f.line
    exact (ended.foldl _ fun _ w hw hu => hu.returnToLookup ((ended.trans hu).awaits (aw w hw))).afterEnd _
  · next live =>
    dsimp only
    split
    · next v _ =>
      have ended := (here.install ok (Bool.eq_false_of_not_eq_true live) v (s.pinWaits f) d).removeFill f.line
      exact (ended.foldl _ fun _ w _ hu => hu.deliver d w).afterEnd _
    · have ended := here.removeFill f.line
      exact (ended.foldl _ fun _ w hw hu => hu.deliverBypass d ((ended.trans hu).awaits (aw w hw))).afterEnd _

theorem failWaiter (h : Onward s t) (w : Waiter) : Onward s (t.failWaiter w) := (h.failNeed w).settle _

theorem failFill (h : Onward s t) (a : Nat) : Onward s (t.failFill a) := by
  unfold State.failFill
  split
  · exact h
  · exact (((h.releaseWay _).removeFill a).foldl _ fun _ w _ hu => hu.failWaiter w).afterEnd _

theorem failIfWaiting (h : Onward s t) (n : NeedState) (w : Waiter) : Onward s (t.failIfWaiting n w) := by
  unfold State.failIfWaiting
  split
  · exact h.failWaiter w
  · exact h

/-- Every entry fails at the entry to FAULTED (R56). -/
theorem failFills (h : Onward s t) : Onward s t.failFills :=
  ((h.foldl _ fun _ w _ hu => hu.failIfWaiting .waitSlot w).foldl _ fun _ w _ hu => hu.failIfWaiting .waitWay w).foldl _
    fun _ a _ hu => hu.failFill a

end Onward

end Sys2Proof.Machine
end

section
/-! PROOFS. R82 and R83 beside the read path: what FSQ and the links do leaves records, ways, entries and holds; the end of a job
takes its hold away, and the acceptance of one clears its range. -/

namespace Sys2Proof.Machine

/-! ### What leaves records, ways, entries and holds -/

theorem holdSide_of_parts {s t : State} (records : t.records = s.records) (cache : t.cache = s.cache)
    (fills : t.fills = s.fills) (jq : t.jq = s.jq) : t.holdSide = s.holdSide := by
  rw [State.holdSide, State.holds, records, cache, fills, jq]
  rfl

theorem OnlyPlaces.holdSide {s t : State} (h : OnlyPlaces s t) : t.holdSide = s.holdSide :=
  holdSide_of_parts h.records h.cache h.fills h.jq

@[simp] theorem updFsq_holdSide (s : State) (f : Fsq → Fsq) : (s.updFsq f).holdSide = s.holdSide := rfl
@[simp] theorem begin_holdSide (s : State) (x : Transaction) : (s.begin x).holdSide = s.holdSide := rfl
@[simp] theorem endPort_holdSide (s : State) : s.endPort.holdSide = s.holdSide := rfl
@[simp] theorem beginWait_holdSide (s : State) (w : Wait) : (s.beginWait w).holdSide = s.holdSide := rfl
@[simp] theorem setFlash_holdSide (s : State) (x : FlashState) : (s.setFlash x).holdSide = s.holdSide := rfl
@[simp] theorem updCounters_holdSide (s : State) (f : Counters → Counters) : (s.updCounters f).holdSide = s.holdSide := rfl

@[simp] theorem updLink_holdSide (s : State) (l : Link) (f : LinkState → LinkState) :
    (s.updLink l f).holdSide = s.holdSide := by cases l <;> rfl

@[simp] theorem place_holdSide (s : State) (l : Link) (x : Byte) (m : Message) : (s.place l x m).holdSide = s.holdSide :=
  (OnlyPlaces.place s l x m).holdSide

@[simp] theorem giveNotice_holdSide (s : State) (l : Link) (m : Message) : (s.giveNotice l m).holdSide = s.holdSide := by
  cases l <;> rfl

@[simp] theorem giveFlashState_holdSide (s : State) : s.giveFlashState.holdSide = s.holdSide := by
  obtain ⟨records, cache, fills, jq, -⟩ := giveFlashState_frame s
  exact holdSide_of_parts records cache fills jq

@[simp] theorem giveStart_holdSide (s : State) : s.giveStart.holdSide = s.holdSide := by simp [State.giveStart]

@[simp] theorem answerProfile_holdSide (s : State) (p : PendingProfile) (st : Status) :
    (s.answerProfile p st).holdSide = s.holdSide := (OnlyPlaces.answerProfile s p st).holdSide

@[simp] theorem answerResets_holdSide (s : State) (st : Status) : (s.answerResets st).holdSide = s.holdSide :=
  (answerResets_places s st).holdSide

@[simp] theorem applyProfile_holdSide (s : State) : s.applyProfile.holdSide = s.holdSide := by
  unfold State.applyProfile
  split <;> simp

/-- The head job keeps its range. -/
theorem updHead_holdSide (s : State) {f : Job → Job} (range : ∀ j, (f j).range = j.range) :
    (s.updHead f).holdSide = s.holdSide := by
  have holds : (s.updHead f).holds = s.holds := by
    rw [State.holds, State.holds, updHead_jobs]
    cases s.jq.jobs with
    | nil => rfl
    | cons j js => rw [List.modifyHead_cons, List.filterMap_cons, List.filterMap_cons, range]
  rw [State.holdSide, holds]
  rfl

@[simp] theorem setPhase_holdSide (s : State) (p : Phase) : (s.setPhase p).holdSide = s.holdSide :=
  updHead_holdSide s fun _ => rfl

/-- Time passes. -/
@[simp] theorem advance_holdSide (s : State) (n : Nat) : (s.advance n).holdSide = s.holdSide :=
  updHead_holdSide s (f := fun j => { j with busyTime := j.busyTime + s.busyGrowth n }) fun _ => rfl

/-- An entry's read begins: its phase is not spoken of. -/
@[simp] theorem beginFill_holdSide (s : State) (f : Fill) : (s.beginFill f).holdSide = s.holdSide := by
  have owes : (transferring f.line s.fills).map Fill.owes = s.fills.map Fill.owes := by
    rw [transferring, List.map_map]
    refine List.map_congr_left fun g _ => ?_
    rw [Function.comp_apply]
    split <;> rfl
  rw [beginFill_eq, State.holdSide, owes]
  rfl

@[simp] theorem serveOldest_holdSide (s : State) : s.serveOldest.holdSide = s.holdSide := by
  unfold State.serveOldest State.serveFill
  split <;> simp

@[simp] theorem choose_holdSide (s : State) : s.choose.holdSide = s.holdSide := by
  unfold State.choose State.startJob
  split
  · split <;> simp
  · simp

@[simp] theorem arbitrate_holdSide (s : State) : s.arbitrate.holdSide = s.holdSide := by simp [State.arbitrate]

@[simp] theorem enterReady_holdSide (s : State) : s.enterReady.holdSide = s.holdSide := by simp [State.enterReady]

@[simp] theorem beginSuspension_holdSide (s : State) : s.beginSuspension.holdSide = s.holdSide := by
  simp [State.beginSuspension]

@[simp] theorem suspendedDecision_holdSide (s : State) : s.suspendedDecision.holdSide = s.holdSide := by
  unfold State.suspendedDecision State.beginResume
  split_ifs
  · rfl
  · rfl
  · split <;> simp

/-- What FSQ does of itself. -/
@[simp] theorem kick_holdSide (s : State) : s.kick.holdSide = s.holdSide := by
  unfold State.kick
  split
  · rfl
  · split
    · exact arbitrate_holdSide s
    · split <;> simp
    · exact suspendedDecision_holdSide s
    · rfl

@[simp] theorem kickIfCreated_holdSide (s t : State) : (kickIfCreated s t).holdSide = t.holdSide := by
  unfold kickIfCreated
  split <;> simp

@[simp] theorem enterRecovery_holdSide (s : State) (o : RecoveryOrigin) (p : Bool) :
    (s.enterRecovery o p).holdSide = s.holdSide := rfl

@[simp] theorem restartRecovery_holdSide (s : State) : s.restartRecovery.holdSide = s.holdSide := rfl

@[simp] theorem enterBusy_holdSide (s : State) : s.enterBusy.holdSide = s.holdSide := by
  simp [State.enterBusy, State.beginStatusRead]

@[simp] theorem recoveryReady_holdSide (s : State) : s.recoveryReady.holdSide = s.holdSide := by
  unfold State.recoveryReady
  dsimp only
  split_ifs <;> simp

@[simp] theorem startupReady_holdSide (s : State) : s.startupReady.holdSide = s.holdSide := by simp [State.startupReady]

@[simp] theorem startupFaulted_holdSide (s : State) (c : FaultCause) : (s.startupFaulted c).holdSide = s.holdSide := by
  simp [State.startupFaulted]

/-! ### An entry in a range that is cleared -/

theorem doomIn_of_doomed (r : Range) {f : Fill} (h : f.doomed = true) : (f.doomIn r).doomed = true := by
  unfold Fill.doomIn
  split
  · rfl
  · exact h

theorem doomIn_waiters (r : Range) (f : Fill) : (f.doomIn r).waiters = f.waiters := by
  unfold Fill.doomIn
  split <;> rfl

/-! ### The end of a job (R69, R83, R87) -/

namespace Guarded

variable {s t : State}

/-- A job's hold goes with it, and the PARKED records are re-examined. -/
theorem endJob (g : Guarded s) (i : Nat) (o : Status) : Guarded (s.endJob i o) := by
  cases job : s.jq.jobs[i]? with
  | none =>
    have same : s.endJob i o = s := by rw [State.endJob, job]
    rw [same]
    exact g
  | some j =>
    have left : Guarded (s.jobLeft i j o) :=
      g.of_holds rfl rfl rfl ((List.eraseIdx_sublist ..).filterMap _).subset
    have ended : Guarded (s.jobNotified i j o) := left.of_same (jobNotified_places s i j o).holdSide
    rw [endJob_at job]
    split
    · exact (Onward.refl ended).reexamine.guarded
    · exact ended

theorem endAllJobs (js : List Job) (g : Guarded s) : Guarded (endAllJobs js s) := by
  induction js generalizing s with
  | nil => exact g
  | cons j js ih => exact ih (g.endJob 0 .flashFault)

theorem finishJob (g : Guarded s) (o : Status) : Guarded (s.finishJob o) := by
  have ended := g.endJob 0 o
  unfold State.finishJob
  dsimp only
  split <;> exact ended.of_same (by simp)

theorem timeOutJob (g : Guarded s) : Guarded s.timeOutJob := (g.endJob 0 .flashTimeout).of_same rfl

theorem abortRunning (g : Guarded s) : Guarded s.abortRunning := by
  unfold State.abortRunning
  split
  · exact g.endJob 0 .aborted
  · exact g

theorem resetTakesEffect (g : Guarded s) : Guarded s.resetTakesEffect := by
  unfold State.resetTakesEffect
  split
  · exact g.of_same rfl
  · exact g.of_same rfl
  · exact g.abortRunning.of_same rfl

theorem checkPassed (g : Guarded s) (j : Job) : Guarded (s.checkPassed j) := by
  unfold State.checkPassed
  split
  · exact g.of_same (by simp)
  · exact g.finishJob .ok

theorem busyEnded (g : Guarded s) (j : Job) : Guarded (s.busyEnded j) := by
  unfold State.busyEnded
  split_ifs
  · exact g.finishJob .ok
  · exact g.checkPassed j
  · exact g.of_same rfl

/-- At the entry to FAULTED every entry and every job ends (R140). -/
theorem recoveryFaulted (g : Guarded s) (c : FaultCause) : Guarded (s.recoveryFaulted c) := by
  have failed : Guarded (s.fillsFailed c) := (Onward.refl (g.of_same (by rfl))).failFills.guarded
  obtain ⟨records, cache, fills, jq, -⟩ := faultAnswers_frame (s.jobsFailed c)
  rw [recoveryFaulted_eq]
  exact (failed.endAllJobs s.jq.jobs).of_same (holdSide_of_parts records cache fills jq)

/-! ### The acceptance of a job (R65, R66, R81) -/

/-- The range of the hold that comes into force holds no pinned line and no PIN in progress, and is cleared. -/
theorem jobHeld (g : Guarded s) (q : Request) {d : JobSpec} (free : s.pinsIn d.range = false)
    (positive : ∀ r, d.range = some r → 0 < r.length) : Guarded (s.jobHeld q d) := by
  have holds : (s.jobHeld q d).holds = s.holds ++ d.range.toList := by
    rw [State.holds, jobHeld_jq, List.filterMap_append]
    cases range : d.range <;> simp [newJob, range, State.holds]
  cases range : d.range with
  | none =>
    obtain ⟨cache, fills, -⟩ := jobHeld_readSide s q d range
    refine g.of_holds (jobHeld_records s q d) cache (by rw [fills]) ?_
    rw [holds, range]
    simp
  | some r =>
    rw [range] at free
    have held : ∀ a, (s.jobHeld q d).Held a ↔ s.Held a ∨ lineInRange a r = true := fun a => by
      simp [State.Held, holds, range, or_and_right, exists_or]
    have records := jobHeld_records s q d
    have ways := jobHeld_set s q d range
    refine ⟨fun i w valid => ?_, fun i => ?_, fun f hf => ?_, fun p hp => ?_, ?_, fun h hh => ?_⟩
    · rw [ways, discard_of_no_pins g.recency free] at valid ⊢
      split at valid
      · cases valid
      · next out =>
        rw [if_neg out, held]
        rintro (old | new)
        · exact g.ways i w valid old
        · exact out (by rw [valid, new]; rfl)
    · rw [ways]
      exact discard_recencyOk (g.recency i) i r
    · rw [jobHeld_fills s q d range] at hf
      obtain ⟨e, he, rfl⟩ := List.mem_map.mp hf
      have ok := g.entries e he
      refine ⟨doomIn_line r e ▸ ok.aligned, fun inside => ?_, fun w hw => ?_⟩
      · rcases (held _).mp inside with old | new
        · exact doomIn_of_doomed r (ok.doomed (doomIn_line r e ▸ old))
        · exact doomIn_doomed new
      · rw [State.HasNeed, records]
        exact ok.waiters w (doomIn_waiters r e ▸ hw)
    · have ok := g.records p (records ▸ hp)
      refine ⟨ok.sized, fun pin => ?_⟩
      have apart : shareLine p.range r = false := by
        rw [shareLine_comm]
        by_contra shared
        have overlap := pinsIn_iff.mpr (.inr ⟨p, records ▸ hp, pin, Bool.eq_true_of_not_eq_false shared⟩)
        rw [free] at overlap
        cases overlap
      have before := ok.pin pin
      rw [State.overlapsHold] at before ⊢
      rw [holds, range, List.any_append, before]
      simp [apart]
    · rw [TagsOk, records]
      exact g.tags
    · rw [holds, range, List.mem_append] at hh
      rcases hh with old | new
      · exact g.ranges h old
      · exact List.mem_singleton.mp new ▸ positive r range

end Guarded

end Sys2Proof.Machine
end

section
/-! PROOFS. R82 and R83: the requests' own parts keep what is owed to the holds. -/

namespace Sys2Proof.Machine

/-! ### Requests that leave records, ways, entries and holds -/

@[simp] theorem refuse_holdSide (q : Request) (k : Kind) (st : Status) (s : State) : (q.refuse k st s).holdSide = s.holdSide :=
  place_holdSide _ _ _ _

@[simp] theorem accept_holdSide (q : Request) (k : Kind) (p : List Byte) (s : State) : (q.accept k p s).holdSide = s.holdSide :=
  place_holdSide _ _ _ _

theorem openBody_holdSide (q : Request) (s : State) : (openBody q s).holdSide = s.holdSide := by
  unfold openBody
  split <;> simp

theorem nopBody_holdSide (q : Request) (s : State) : (nopBody q s).holdSide = s.holdSide := by
  unfold nopBody
  split <;> simp

theorem clearCounts_holdSide (s : State) : s.clearCounts.holdSide = s.holdSide := rfl

theorem getStatsBody_holdSide (q : Request) (s : State) : (getStatsBody q s).holdSide = s.holdSide := by
  unfold getStatsBody
  split
  · simp
  · dsimp only
    split <;> simp [clearCounts_holdSide]

theorem probeBody_holdSide (q : Request) (s : State) : (probeBody q s).holdSide = s.holdSide := by
  unfold probeBody
  dsimp only
  split_ifs <;> simp

theorem queryBody_holdSide (q : Request) (s : State) : (queryBody q s).holdSide = s.holdSide := by
  unfold queryBody
  split
  · split <;> simp
  · split <;> simp

theorem setProfileBody_holdSide (q : Request) (s : State) : (setProfileBody q s).holdSide = s.holdSide := by
  unfold setProfileBody State.pendProfile
  dsimp only
  split
  · simp
  · split_ifs <;> simp

/-- The Protection Table is not spoken of. -/
@[simp] theorem protection_holdSide (s : State) (table : Vector (Option ProtectEntry) 8) :
    ({ s with protection := table } : State).holdSide = s.holdSide := rfl

theorem protectBody_holdSide (q : Request) (s : State) : (protectBody q s).holdSide = s.holdSide := by
  unfold protectBody
  split
  · simp
  · split <;> simp

theorem unprotectBody_holdSide (q : Request) (s : State) : (unprotectBody q s).holdSide = s.holdSide := by
  unfold unprotectBody
  dsimp only
  split
  · split
    · simp
    · split <;> simp
  · simp

/-! ### READ and PIN: a record joins (R28 to R31, R80, R83) -/

theorem newRecord_sized (q : Request) (k : RecordKind) {r : Range} (positive : 0 < r.length) : (newRecord q k r).sized :=
  ⟨positive, List.length_replicate⟩

theorem positive_of_lengthBad {n m : Nat} (h : (decide (n = 0) || decide (m < n)) = false) : 0 < n := by
  simp at h
  omega

/-- All needs of a record in use are looked up where no hold overlaps its range. -/
theorem Onward.lookUpAll {s t : State} (h : Onward s t) (g : Guarded s) {r : Record} (hr : r ∈ s.records)
    (free : s.overlapsHold r.range = false) : Onward s ((t.lookups r.id (List.range r.needs.length)).settle r.id) := by
  have aw : ∀ i ∈ List.range r.needs.length, s.Awaits ⟨r.id, i⟩ := fun i hi =>
    awaits_of_need g.tags ⟨r, hr, rfl, List.mem_range.mp hi⟩
  exact (h.lookups (fun i hi => h.awaits (aw i hi)) (h.unheld (unheld_of_record g.tags hr free))).settle _

namespace Guarded

variable {s t : State}

theorem refuse (g : Guarded s) (q : Request) (k : Kind) (st : Status) : Guarded (q.refuse k st s) :=
  g.of_same (refuse_holdSide q k st s)

theorem accept (g : Guarded s) (q : Request) (k : Kind) (p : List Byte) : Guarded (q.accept k p s) :=
  g.of_same (accept_holdSide q k p s)

theorem addRecord (g : Guarded s) {r : Record} (ok : s.RecordOk r) (fresh : ∀ q ∈ s.records, q.id ≠ r.id) :
    Guarded (s.addRecord r) := by
  refine ⟨g.ways, g.recency, fun f hf => ?_, fun q hq => ?_, ?_, g.ranges⟩
  · have entry := g.entries f hf
    refine entry.of_entry (List.Subset.refl _) rfl (fun x => x) fun w hw => ?_
    obtain ⟨q, hq, own⟩ := entry.waiters w hw
    exact ⟨q, List.mem_append_left _ hq, own⟩
  · rcases List.mem_append.mp hq with old | new
    · exact ⟨(g.records q old).sized, (g.records q old).pin⟩
    · obtain rfl := List.mem_singleton.mp new
      exact ⟨ok.sized, ok.pin⟩
  · have apart : r.id ∉ s.records.map Record.id := fun hr => by
      obtain ⟨q, hq, e⟩ := List.mem_map.mp hr
      exact fresh q hq e
    rw [TagsOk, State.addRecord, List.map_append, List.map_singleton, ← List.concat_eq_append, List.nodup_concat]
    exact ⟨apart, g.tags⟩

theorem readBody (g : Guarded s) (q : Request) : Guarded (readBody q s) := by
  unfold Machine.readBody
  split
  · exact g.refuse _ _ _
  · next passed =>
    have positive : 0 < (payloadRange q.payload 2).length :=
      positive_of_lengthBad (m := 256) (check_passed passed (st := .badLength) (by simp [readChecks]))
    have fresh := tagInUse_eq_false.mp (check_passed passed (b := s.tagInUse q) (st := .tagInUse) (by simp [readChecks]))
    have ok : s.RecordOk (newRecord q .read (payloadRange q.payload 2)) :=
      ⟨newRecord_sized q .read positive, fun pin => by cases pin⟩
    unfold State.acceptRead
    dsimp only
    split
    · exact g.addRecord (r := { newRecord q .read (payloadRange q.payload 2) with state := .parked }) ⟨ok.sized, ok.pin⟩ fresh
    · next free =>
      have joined := g.addRecord ok fresh
      exact ((Onward.refl joined).lookUpAll joined (List.mem_append_right _ List.mem_cons_self)
        (Bool.eq_false_of_not_eq_true free)).guarded.of_same (kickIfCreated_holdSide s _)

theorem pinBody (g : Guarded s) (q : Request) : Guarded (pinBody q s) := by
  unfold Machine.pinBody
  split
  · exact g.refuse _ _ _
  · next passed =>
    have positive : 0 < (payloadRange q.payload 2).length :=
      positive_of_lengthBad (m := 8192) (check_passed passed (st := .badLength) (by simp [pinChecks]))
    have fresh := tagInUse_eq_false.mp (check_passed passed (b := s.tagInUse q) (st := .tagInUse) (by simp [pinChecks]))
    have free : s.overlapsHold (payloadRange q.payload 2) = false := check_passed passed (st := .rangeHeld) (by simp [pinChecks])
    have joined : Guarded (s.addRecord (newRecord q .pin (payloadRange q.payload 2))) :=
      g.addRecord ⟨newRecord_sized q .pin positive, fun _ => free⟩ fresh
    have claimed := (Onward.refl joined).foldl (f := State.addClaim) (s.unpinnedLines (payloadRange q.payload 2))
      fun _ a _ hu => hu.addClaim a
    exact (claimed.lookUpAll joined (List.mem_append_right _ List.mem_cons_self) free).guarded.of_same (kickIfCreated_holdSide s _)

/-! ### UNPIN, INVALIDATE -/

theorem unpin_staysValid (c : CacheSet) (i : Fin 128) (r : Range) (w : Fin 4) :
    ((c.unpin i r).ways[w]).StaysValid c.ways[w] := by
  rw [unpin_ways]
  split
  · exact fun valid => ⟨(withPinned_isValid _ false).symm.trans valid, (withPinned_tag _ false).symm⟩
  · exact .refl _

theorem discard_staysValid (c : CacheSet) (i : Fin 128) (r : Range) (w : Fin 4) :
    ((c.discard i r).ways[w]).StaysValid c.ways[w] := by
  rw [discard_ways]
  split
  · exact staysValid_of_not_valid rfl
  · exact .refl _

/-- Where every VALID way was VALID with its tag, none is held. -/
theorem ways_of_staysValid (g : Guarded s) (h : ∀ (i : Fin 128) (w : Fin 4), (t.set i).ways[w].StaysValid (s.set i).ways[w])
    (i : Fin 128) (w : Fin 4) (valid : (t.set i).ways[w].isValid = true) : ¬ s.Held (wayLine i (t.set i).ways[w].tag) := by
  obtain ⟨old, tag⟩ := h i w valid
  exact tag ▸ g.ways i w old

theorem unpinned (g : Guarded s) (r : Range) : Guarded (s.mapSets (fun i c => c.unpin i r)) := by
  refine ((Onward.refl g).next (by simp [State.holds]) (by simp) ((unpin_moves s r).keeps_recency g.recency)
    (g.ways_of_staysValid fun i w => ?_) fun f hf => ?_).guarded
  · rw [mapSets_set]
    exact unpin_staysValid _ i r w
  · have ok := g.entries f (by simpa using hf)
    exact ok.of_entry (by simp [State.holds]) rfl (fun x => x) fun w hw => HasNeed_of_fixed (by simp) (ok.waiters w hw)

theorem clearRange (g : Guarded s) (r : Range) : Guarded (s.clearRange r) := by
  refine ((Onward.refl g).next (by simp [State.holds]) (by simp) ((clearRange_moves s r).keeps_recency g.recency)
    (g.ways_of_staysValid fun i w => ?_) fun f hf => ?_).guarded
  · rw [clearRange_set]
    exact discard_staysValid _ i r w
  · rw [clearRange_fills] at hf
    obtain ⟨e, he, rfl⟩ := List.mem_map.mp hf
    have ok := g.entries e he
    exact ok.of_entry (by simp [State.holds]) (doomIn_line r e) (doomIn_of_doomed r) fun w hw =>
      HasNeed_of_fixed (by simp) (ok.waiters w (doomIn_waiters r e ▸ hw))

theorem unpinBody (g : Guarded s) (q : Request) : Guarded (unpinBody q s) := by
  unfold Machine.unpinBody
  split
  · exact g.refuse _ _ _
  · exact (g.unpinned _).accept _ _ _

theorem invalidateBody (g : Guarded s) (q : Request) : Guarded (invalidateBody q s) := by
  unfold Machine.invalidateBody
  split
  · exact g.refuse _ _ _
  · exact (g.clearRange _).accept _ _ _

/-! ### Jobs -/

/-- A job request's own checks see to it that a range has bytes; the common ones, that it holds no pin. -/
theorem jobRequest (g : Guarded s) (q : Request) (k : Kind) {own : List (Bool × Status)} {d : JobSpec}
    (positive : firstFailure own = none → ∀ r, d.range = some r → 0 < r.length) : Guarded (jobRequest q k own d s) := by
  cases checks : firstFailure (own ++ commonChecks q.link d.kind d.range s) with
  | some st => exact jobRequest_refuses checks ▸ g.refuse q k st
  | none =>
    have free : s.pinsIn d.range = false := check_passed checks (st := .rangePinned) (by simp [commonChecks])
    have passed : firstFailure own = none := firstFailure_eq_none.mpr fun c hc =>
      firstFailure_eq_none.mp checks c (List.mem_append_left _ hc)
    have held := (g.jobHeld q free (positive passed)).accept q k (leBytes 2 s.jq.nextId.toNat)
    rw [jobRequest_accepts checks, acceptJob_eq]
    split
    · exact held.of_same (by simp)
    · exact held

theorem programBody (g : Guarded s) (q : Request) : Guarded (programBody q s) := by
  refine g.jobRequest q .program fun passed r range => ?_
  cases range
  exact positive_of_lengthBad (m := 256) (check_passed passed (st := .badLength) (by simp [programChecks]))

theorem eraseBody (g : Guarded s) (q : Request) : Guarded (eraseBody q s) := by
  refine g.jobRequest q .erase fun _ r range => ?_
  cases range
  show 0 < eraseUnit q.payload
  unfold eraseUnit
  split <;> omega

theorem capacity_pos (s : State) : 0 < s.capacity := Nat.mul_pos (by decide) (Nat.two_pow_pos _)

theorem rawBody (g : Guarded s) (q : Request) : Guarded (rawBody q s) := by
  refine g.jobRequest q .raw fun _ r range => ?_
  rw [rawSpec_range] at range
  split at range
  · cases range
    exact capacity_pos s
  · cases range

theorem cancelBody (g : Guarded s) (q : Request) : Guarded (cancelBody q s) := by
  unfold Machine.cancelBody State.afterCancel
  split
  · exact g.refuse _ _ _
  · next i _ =>
    have ended := (g.endJob i .cancelled).accept q .cancelJob q.payload
    split
    · exact g.refuse _ _ _
    · split
      · exact g.refuse _ _ _
      · dsimp only
        split
        · exact ended.of_same (by simp)
        · exact ended

/-! ### CLOSE -/

end Guarded

/-- A record is removed with its waiters and its claims (R12, R39). -/
theorem Onward.removeRecord {s t : State} (h : Onward s t) (r : Record) : Onward s (removeRecord t r) := by
  have freed := h.freeRecord r.id
  refine freed.next (by rw [removeRecord_frame]; rfl) (by rw [removeRecord_records])
    ((removeRecord_moves t r).keeps_recency h.guarded.recency) (fun i w valid => ?_) fun f hf => ?_
  · rw [removeRecord_set] at valid ⊢
    exact freed.guarded.ways i w valid
  · have ok := freed.guarded.entries f (removeRecord_fills t r ▸ hf)
    exact ok.of_entry (by rw [removeRecord_frame]; exact List.Subset.refl _) rfl (fun x => x) fun w hw =>
      HasNeed_of_fixed (by rw [removeRecord_records]) (ok.waiters w hw)

/-- The notice flags alone change (R76). -/
theorem suppress_holdSide (s : State) (l : Link) (x : Byte) : (s.suppress l x).holdSide = s.holdSide := by
  have holds : (s.suppress l x).holds = s.holds := by
    rw [State.holds, State.suppress, List.filterMap_map]
    refine List.filterMap_congr fun j _ => ?_
    rw [Function.comp_apply]
    split <;> rfl
  rw [State.holdSide, holds]
  rfl

namespace Guarded

variable {s : State}

theorem closeBody (g : Guarded s) (q : Request) : Guarded (closeBody q s) := by
  unfold Machine.closeBody
  have removed := fun (t : State) (ht : Guarded t) (rs : List Record) =>
    ((Onward.refl ht).foldl rs fun _ r _ hu => hu.removeRecord r).guarded
  exact of_same (of_same (removed _ (g.of_same (updLink_holdSide s q.link _)) _) (suppress_holdSide _ _ _)) rfl

theorem resetFlashBody (g : Guarded s) (q : Request) : Guarded (resetFlashBody q s) := by
  have listed : Guarded (s.listReset q) := g.of_same rfl
  unfold Machine.resetFlashBody
  dsimp only
  split
  · exact listed.of_same rfl
  · exact listed.resetTakesEffect

/-- A reset empties every table (R20, R40, R57, R78). -/
theorem of_clearBlocks {s t : State} (same : t.holdSide = s.clearBlocks.holdSide) : Guarded t :=
  (of_empty (s := s.clearBlocks) rfl rfl rfl fun i => by simp [State.clearBlocks, State.set]).of_same same

/-- The request's own part of every kind. -/
theorem bodyOf (g : Guarded s) (k : Kind) (q : Request) : Guarded (bodyOf k q s) := by
  cases k with
  | openSession => exact g.of_same (openBody_holdSide q s)
  | closeSession => exact g.closeBody q
  | nop => exact g.of_same (nopBody_holdSide q s)
  | getStatus => exact g.accept _ _ _
  | getStats => exact g.of_same (getStatsBody_holdSide q s)
  | read => exact g.readBody q
  | pin => exact g.pinBody q
  | unpin => exact g.unpinBody q
  | invalidate => exact g.invalidateBody q
  | probeLine => exact g.of_same (probeBody_holdSide q s)
  | program => exact g.programBody q
  | erase => exact g.eraseBody q
  | raw => exact g.rawBody q
  | cancelJob => exact g.cancelBody q
  | queryJob => exact g.of_same (queryBody_holdSide q s)
  | setProfile => exact g.of_same (setProfileBody_holdSide q s)
  | getProfile => exact g.accept _ _ _
  | resetFlash => exact g.resetFlashBody q
  | resetPart => exact of_clearBlocks (s := s) rfl
  | protect => exact g.of_same (protectBody_holdSide q s)
  | unprotect => exact g.of_same (unprotectBody_holdSide q s)
  | listProtect => exact g.accept _ _ _

end Guarded

end Sys2Proof.Machine
end

section
/-! PROOFS. R82 and R83: every command and every step keep what is owed to the holds; settles O59. -/

namespace Sys2Proof.Machine

/-! ### Commands -/

/-- Where a command answers a next state, what is owed to the holds is kept in it. -/
def EndsGuarded (o : Host.Outcome State Fault Refusal) : Prop := ∀ t, o = .next t → Guarded t

theorem endsGuarded_next {t : State} (g : Guarded t) : EndsGuarded (.next t) := fun _ e => by cases e; exact g

theorem endsGuarded_fault (f : Fault) : EndsGuarded (.fault f) := fun _ e => by cases e

/-- A command that faults where its condition fails. -/
theorem EndsGuarded.orFault {o : Host.Outcome State Fault Refusal} (h : EndsGuarded o) {c : Prop} {_ : Decidable c}
    {f : Fault} :
    EndsGuarded (if c then o else .fault f) := by
  split
  · exact h
  · exact endsGuarded_fault f

/-- A command that faults where its condition holds. -/
theorem EndsGuarded.unlessFault {o : Host.Outcome State Fault Refusal} (h : EndsGuarded o) {c : Prop} {_ : Decidable c}
    {f : Fault} : EndsGuarded (if c then .fault f else o) := by
  split
  · exact endsGuarded_fault f
  · exact h

/-! ### A frame arrives -/

theorem openA_holdSide (s : State) : s.openA.holdSide = s.holdSide := by
  obtain ⟨p, opened⟩ := openA_frame s
  rw [opened]
  rfl

@[simp] theorem take_holdSide (s : State) (l : Link) : (s.take l).holdSide = s.holdSide := updLink_holdSide s l _

@[simp] theorem reject_holdSide (s : State) (l : Link) (x : Byte) (r : RejectReason) :
    (s.reject l x r).holdSide = s.holdSide := by simp [State.reject]

@[simp] theorem discardRest_holdSide (s : State) (l : Link) : (s.discardRest l).holdSide = s.holdSide := by cases l <;> rfl

/-- The reception of a frame, taken or lost, changes nothing that R82 and R83 speak of. -/
def Reception.LeavesHolds (s : State) : Reception → Prop
  | .taken u => u.holdSide = s.holdSide
  | .lost u => u.holdSide = s.holdSide
  | .cannot _ => True

theorem receiveA_leavesHolds (s : State) (fits : List Byte → Bool) : (s.receiveA fits).LeavesHolds s := by
  have opened := openA_holdSide s
  unfold State.receiveA
  dsimp only
  split
  · split <;> exact opened
  · split
    · split
      · exact opened
      · trivial
    · exact opened
  · trivial
  · exact opened

theorem receiveB_leavesHolds (s : State) (fits : List Byte → Bool) : (s.receiveB fits).LeavesHolds s := by
  unfold State.receiveB
  split
  · rfl
  · split
    · split <;> rfl
    · rfl
    · split
      · rfl
      · trivial

theorem receive_leavesHolds (s : State) (l : Link) (frame : List Byte) : (s.receive l frame).LeavesHolds s := by
  cases l with
  | a => exact receiveA_leavesHolds s _
  | b => exact receiveB_leavesHolds s fun buf => beginsFrame buf frame

namespace Guarded

variable {s : State}

theorem outcome (g : Guarded s) {r : Reception} (leaves : r.LeavesHolds s) {act : State → State}
    (acts : ∀ u, Guarded u → Guarded (act u)) : EndsGuarded (r.outcome act) := by
  cases r with
  | taken u => exact endsGuarded_next (acts u (g.of_same leaves))
  | lost u => exact endsGuarded_next (g.of_same leaves)
  | cannot f => exact endsGuarded_fault f

theorem arrival (g : Guarded s) (v : Arrival) (frame : List Byte) {ends : Link → Host.Outcome State Fault Refusal}
    (whole : ∀ l, EndsGuarded (ends l)) : EndsGuarded (s.arrival v frame ends) := by
  cases v with
  | a => exact whole .a
  | b => exact whole .b
  | aUpTo n =>
    intro t e
    rw [(shiftInA_next e).1]
    exact g.of_same rfl

/-! ### Requests and rejects -/

theorem serve (g : Guarded s) (q : Request) (k : Kind) : Guarded (q.serve k (Machine.bodyOf k) s) := by
  unfold Request.serve
  split
  · exact g.refuse _ _ _
  · split
    · exact g.refuse _ _ _
    · exact g.bodyOf k q

/-- A request of any kind. -/
theorem requestArrives (g : Guarded s) (k : Kind) (v : Arrival) (tag : Byte) (p : List Byte) :
    EndsGuarded (requestArrives k (Machine.bodyOf k) v tag p s) := by
  refine g.arrival v _ fun l => ?_
  unfold frameTaken
  dsimp only
  split
  · exact g.outcome (receive_leavesHolds s l _) fun u gu => gu.of_same (by simp)
  · exact g.outcome (receive_leavesHolds s l _) fun u gu => gu.serve _ k

theorem execUnknownKind (g : Guarded s) (v : Arrival) (kind tag : Byte) (p : List Byte) :
    EndsGuarded (execUnknownKind v kind tag p s) := by
  refine EndsGuarded.unlessFault (g.arrival v _ fun l => ?_)
  unfold unknownTaken
  dsimp only
  split
  · exact g.outcome (receive_leavesHolds s l _) fun u gu => gu.of_same (by simp)
  · exact g.outcome (receive_leavesHolds s l _) fun u gu => gu.of_same (place_holdSide _ _ _ _)

/-- Time passes up to an expiry, and then it acts. -/
theorem atExpiry (g : Guarded s) (left : Nat) {act : State → State} (acts : ∀ u, Guarded u → Guarded (act u)) :
    EndsGuarded (atExpiry s left act) := fun t e => by
  obtain ⟨-, rfl⟩ := atExpiry_next e
  exact acts _ (g.of_same (advance_holdSide s left))

/-- An expiry that acts on nothing that R82 and R83 speak of. -/
theorem atExpiry_same (g : Guarded s) (left : Nat) {act : State → State} (same : ∀ u, (act u).holdSide = u.holdSide) :
    EndsGuarded (Machine.atExpiry s left act) := g.atExpiry left fun u gu => gu.of_same (same u)

theorem truncateB (g : Guarded s) : EndsGuarded s.truncateB := g.atExpiry_same _ fun u => by simp

theorem truncatedB (g : Guarded s) : EndsGuarded s.truncatedB := by
  unfold State.truncatedB
  split
  · exact endsGuarded_next g
  · split
    · split
      · exact truncateB (s := s.beginFrameB) (g.of_same rfl)
      · exact endsGuarded_next (g.of_same rfl)
    · exact g.truncateB
    · exact endsGuarded_next (g.of_same rfl)

theorem execFrameReject (g : Guarded s) (v : RejectArrival) (r : RejectReason) : EndsGuarded (execFrameReject v r s) := by
  cases v with
  | a => exact g.outcome (receiveA_leavesHolds s _) fun u gu => gu.of_same (reject_holdSide _ _ _ _)
  | aBytes bytes =>
    intro t e
    rw [(shiftInA_next e).1]
    exact g.of_same rfl
  | b =>
    cases r with
    | truncated => exact g.truncatedB
    | length => exact g.outcome (receiveB_leavesHolds s _) fun u gu => gu.of_same (by simp)
    | crc => exact g.outcome (receiveB_leavesHolds s _) fun u gu => gu.of_same (reject_holdSide _ _ _ _)

/-! ### The links -/

theorem execLinkAOverrun (g : Guarded s) : EndsGuarded (execLinkAOverrun s) := by
  have lost := g.outcome (receiveA_leavesHolds s fun _ => false) (act := id) fun _ gu => gu
  unfold Machine.execLinkAOverrun
  dsimp only
  split
  · exact lost.unlessFault
  · exact lost.unlessFault
  · exact endsGuarded_fault _
  · exact endsGuarded_next (g.of_same (openA_holdSide s))

theorem execLinkBOverrun (g : Guarded s) : EndsGuarded (execLinkBOverrun s) := by
  unfold Machine.execLinkBOverrun
  split_ifs
  · exact endsGuarded_next g
  · exact endsGuarded_next (g.of_same rfl)
  · exact endsGuarded_fault _

theorem fall (g : Guarded s) : EndsGuarded s.fall := by
  refine EndsGuarded.orFault (endsGuarded_next ?_)
  exact g.of_same rfl

theorem firstByte_ignored (g : Guarded s) : EndsGuarded (s.firstByte (fun t b => t.selectA b .ignored)) := by
  have opened := g.of_same (openA_holdSide s)
  unfold State.firstByte
  dsimp only
  split
  · exact endsGuarded_next (opened.of_same rfl)
  · exact endsGuarded_next opened
  · exact endsGuarded_fault _

theorem execLinkAIgnored (g : Guarded s) (part : IgnoredPart) : EndsGuarded (execLinkAIgnored part s) := by
  unfold Machine.execLinkAIgnored
  cases part with
  | fall => exact g.fall
  | select b => exact g.firstByte_ignored.unlessFault
  | rise =>
    dsimp only
    split
    · exact endsGuarded_next (g.of_same rfl)
    · exact endsGuarded_next (g.of_same rfl)
    · exact endsGuarded_fault _
  | whole b =>
    refine EndsGuarded.unlessFault ?_
    split
    · next t e => exact endsGuarded_next ((g.firstByte_ignored t e).of_same rfl)
    · exact g.firstByte_ignored

theorem execFetch (g : Guarded s) (part : FetchPart) : EndsGuarded (execFetch part s) := fun t e => by
  rw [(execFetch_next e).1]
  exact g.of_same rfl

theorem execTransmitBegin (g : Guarded s) (cts : Bool) : EndsGuarded (execTransmitBegin s cts) := by
  unfold Machine.execTransmitBegin
  dsimp only
  split
  · exact endsGuarded_next (g.of_same rfl)
  · exact endsGuarded_next (g.of_same rfl)

theorem execTransmitEnd (g : Guarded s) : EndsGuarded (execTransmitEnd s) := by
  unfold Machine.execTransmitEnd
  split
  · exact endsGuarded_fault _
  · exact endsGuarded_next (g.of_same rfl)
  · exact endsGuarded_next (g.of_same rfl)

theorem execInterByteExpiry (g : Guarded s) : EndsGuarded (execInterByteExpiry s) := by
  unfold Machine.execInterByteExpiry
  split
  · exact endsGuarded_fault _
  · exact g.truncateB
  · exact g.atExpiry_same _ fun _ => rfl

/-- A frame on link B whose last byte has come in is served, answered as unknown, or rejected. -/
theorem takeWholeB (g : Guarded s) (bytes : List Byte) : Guarded (s.takeWholeB bytes) := by
  have taken := g.of_same (take_holdSide s .b)
  unfold State.takeWholeB
  dsimp only
  split
  · split
    · exact taken.serve _ _
    · exact taken.of_same (place_holdSide _ _ _ _)
  · exact taken.of_same (reject_holdSide _ _ _ _)

theorem storeByteB (g : Guarded s) (b : Byte) : Guarded (s.storeByteB b) := by
  unfold State.storeByteB
  dsimp only
  split_ifs
  · exact g.of_same (by simp)
  · exact g.takeWholeB _
  · exact g.of_same rfl

theorem execByteReceived (g : Guarded s) (b : Byte) : EndsGuarded (execByteReceived b s) := by
  unfold Machine.execByteReceived
  split
  · exact endsGuarded_next g
  · split
    · split_ifs
      · exact endsGuarded_next (g.of_same rfl)
      · exact endsGuarded_next (g.of_same rfl)
      · exact endsGuarded_next g
    · exact endsGuarded_next (g.storeByteB b)
    · exact endsGuarded_next (g.of_same rfl)

/-! ### The flash port: fills and jobs -/

theorem afterFill (g : Guarded s) : Guarded s.afterFill := by
  unfold State.afterFill
  split_ifs
  · exact g.resetTakesEffect
  · exact g.of_same (suspendedDecision_holdSide s)
  · exact g.of_same (enterReady_holdSide s)

theorem execFillArrival (g : Guarded s) (data : List Byte) : EndsGuarded (execFillArrival data s) := by
  unfold Machine.execFillArrival
  split
  · exact endsGuarded_fault _
  · refine EndsGuarded.unlessFault ?_
    split
    · exact endsGuarded_fault _
    · next f found =>
      have arrived := (Onward.arrive (s := s.endPort) (g.of_same rfl) (fill_eq_some found).1 data).guarded
      exact endsGuarded_next arrived.afterFill

theorem jobTransactionEnd (g : Guarded s) (use : TransactionUse) {act : Job → State → State}
    (acts : ∀ j u, Guarded u → Guarded (act j u)) : EndsGuarded (jobTransactionEnd s use act) := by
  have ended := g.of_same (endPort_holdSide s)
  unfold Machine.jobTransactionEnd
  split
  · split
    · exact endsGuarded_fault _
    · refine endsGuarded_next ?_
      split
      · exact ended.resetTakesEffect
      · exact acts _ _ ended
  · exact endsGuarded_fault _

/-- A job's transaction whose end acts on nothing that R82 and R83 speak of. -/
theorem jobTransactionEnd_same (g : Guarded s) (use : TransactionUse) {act : Job → State → State}
    (same : ∀ j u, (act j u).holdSide = u.holdSide) : EndsGuarded (Machine.jobTransactionEnd s use act) :=
  g.jobTransactionEnd use fun j u gu => gu.of_same (same j u)

theorem execDescriptorEnd (g : Guarded s) (data : List Byte) : EndsGuarded (execDescriptorEnd data s) := by
  unfold Machine.execDescriptorEnd
  refine EndsGuarded.unlessFault (g.jobTransactionEnd _ fun j u gu => ?_)
  have kept := gu.of_same (updHead_holdSide u (f := fun k => { k with dataIn := data }) fun _ => rfl)
  unfold State.descriptorEnded
  dsimp only
  split
  · exact kept.of_same (enterBusy_holdSide _)
  · exact kept.finishJob _

theorem statusRead (g : Guarded s) (b : Byte) (j : Job) : Guarded (s.statusRead b j) := by
  unfold State.statusRead
  split_ifs
  · exact g.busyEnded j
  · exact g.timeOutJob
  · exact g.of_same (beginSuspension_holdSide s)
  · exact g.of_same rfl

theorem execPollExpiry (g : Guarded s) : EndsGuarded (execPollExpiry s) := by
  unfold Machine.execPollExpiry
  refine EndsGuarded.orFault ?_
  exact g.atExpiry_same _ fun _ => rfl

theorem execOperationTimeout (g : Guarded s) : EndsGuarded (execOperationTimeout s) := by
  unfold Machine.execOperationTimeout
  split
  · split
    · exact endsGuarded_fault _
    · dsimp only
      split
      · exact g.atExpiry _ fun u gu => gu.timeOutJob
      · exact g.atExpiry_same _ fun _ => rfl
  · exact endsGuarded_fault _

theorem errorStatusRead (g : Guarded s) (b : Byte) (j : Job) : Guarded (s.errorStatusRead b j) := by
  unfold State.errorStatusRead
  split_ifs
  · exact g.finishJob _
  · exact g.of_same rfl
  · exact g.checkPassed j

theorem execVerifyEnd (g : Guarded s) (data : List Byte) : EndsGuarded (execVerifyEnd data s) := by
  unfold Machine.execVerifyEnd
  exact (g.jobTransactionEnd _ fun j u gu => gu.finishJob _).unlessFault

/-! ### Suspension -/

theorem execHoldExpiry (g : Guarded s) : EndsGuarded (execHoldExpiry s) := by
  unfold Machine.execHoldExpiry
  dsimp only
  split
  · exact endsGuarded_fault _
  · split_ifs
    · exact endsGuarded_fault _
    · refine g.atExpiry_same _ fun u => ?_
      split
      · exact beginSuspension_holdSide u
      · rfl
    · exact g.atExpiry_same _ fun _ => rfl
    · exact endsGuarded_fault _

theorem suspendedStatus (g : Guarded s) (b : Byte) (j : Job) : Guarded (s.suspendedStatus b j) := by
  unfold State.suspendedStatus
  dsimp only
  split_ifs
  · exact g.of_same (by simp [State.enterSuspended])
  · exact busyEnded (g.of_same (by simp)) j
  · exact g.timeOutJob
  · exact g.of_same rfl

theorem execSuspendPollExpiry (g : Guarded s) : EndsGuarded (execSuspendPollExpiry s) := by
  unfold Machine.execSuspendPollExpiry
  refine EndsGuarded.orFault ?_
  exact g.atExpiry_same _ fun _ => rfl

theorem execSuspendTimeout (g : Guarded s) : EndsGuarded (execSuspendTimeout s) := by
  unfold Machine.execSuspendTimeout
  dsimp only
  split_ifs
  · exact g.atExpiry _ fun u gu => gu.timeOutJob
  · exact g.atExpiry_same _ fun _ => rfl
  · exact endsGuarded_fault _

theorem resumed (g : Guarded s) : Guarded s.resumed :=
  (g.of_same (updHead_holdSide s (f := fun j => { j with suspendCount := j.suspendCount + 1, phase := some .busy })
    fun _ => rfl)).of_same rfl

theorem execResumeEnd (g : Guarded s) : EndsGuarded (execResumeEnd s) := by
  have again := (g.of_same (endPort_holdSide s)).resumed
  unfold Machine.execResumeEnd
  split
  · split
    · exact endsGuarded_fault _
    · refine endsGuarded_next ?_
      split
      · exact again.resetTakesEffect
      · exact again.of_same rfl
  · exact endsGuarded_fault _

/-! ### Recovery -/

theorem recoveryStep (g : Guarded s) {act : State → State} (acts : ∀ u, Guarded u → Guarded (act u)) :
    Guarded (s.recoveryStep act) := by
  have ended := g.of_same (endPort_holdSide s)
  unfold State.recoveryStep
  dsimp only
  split_ifs
  · exact ended.recoveryFaulted _
  · exact ended.of_same rfl
  · exact acts _ ended

theorem execRecoveryResetEnd (g : Guarded s) : EndsGuarded (execRecoveryResetEnd s) := by
  unfold Machine.execRecoveryResetEnd
  split_ifs
  · exact endsGuarded_next (g.recoveryStep fun u gu => gu.of_same rfl)
  · exact endsGuarded_next (g.recoveryStep fun u gu => gu.of_same rfl)
  · exact endsGuarded_fault _

theorem execRecoveryWaitEnd (g : Guarded s) : EndsGuarded (execRecoveryWaitEnd s) := by
  unfold Machine.execRecoveryWaitEnd
  refine EndsGuarded.orFault ?_
  exact g.atExpiry_same _ fun _ => rfl

theorem recoveryStatus (g : Guarded s) (b : Byte) : Guarded (s.recoveryStatus b) := by
  unfold State.recoveryStatus
  split_ifs
  · exact g.of_same rfl
  · exact g.of_same (recoveryReady_holdSide s)
  · exact g.of_same rfl
  · exact g.recoveryFaulted _

theorem execRecoveryStatusEnd (g : Guarded s) (b : Byte) : EndsGuarded (execRecoveryStatusEnd b s) := by
  unfold Machine.execRecoveryStatusEnd
  exact (endsGuarded_next (g.recoveryStep fun u gu => gu.recoveryStatus b)).orFault

theorem recoveryId (g : Guarded s) (i : FlashId) : Guarded (s.recoveryId i) := by
  have read := g.of_same (updFsq_holdSide s fun q => { q with flashId := i })
  unfold State.recoveryId
  dsimp only
  split
  · exact read.recoveryFaulted _
  · exact read.of_same (recoveryReady_holdSide _)

theorem execRecoveryIdEnd (g : Guarded s) (i : FlashId) : EndsGuarded (execRecoveryIdEnd i s) := by
  unfold Machine.execRecoveryIdEnd
  exact (endsGuarded_next (g.recoveryStep fun u gu => gu.recoveryId i)).orFault

theorem execRecoveryTimeout (g : Guarded s) : EndsGuarded (execRecoveryTimeout s) := by
  unfold Machine.execRecoveryTimeout
  dsimp only
  split_ifs
  · exact g.atExpiry _ fun u gu => gu.recoveryFaulted _
  · exact g.atExpiry_same _ fun _ => rfl
  · exact endsGuarded_fault _

/-! ### Resets and start-up -/

theorem execPinResetRelease (g : Guarded s) (cap : Fin 8) (baud : Fin 4) : EndsGuarded (execPinResetRelease cap baud s) := by
  unfold Machine.execPinResetRelease
  refine EndsGuarded.orFault (endsGuarded_next ?_)
  exact g.of_same rfl

theorem execStartupSettleEnd (g : Guarded s) : EndsGuarded (execStartupSettleEnd s) := by
  unfold Machine.execStartupSettleEnd
  refine EndsGuarded.orFault ?_
  exact g.atExpiry_same _ fun _ => rfl

theorem execStartupResetEnd (g : Guarded s) : EndsGuarded (execStartupResetEnd s) := by
  unfold Machine.execStartupResetEnd
  split_ifs
  · exact endsGuarded_next (g.of_same rfl)
  · exact endsGuarded_next (g.of_same rfl)
  · exact endsGuarded_fault _

theorem execStartupWaitEnd (g : Guarded s) : EndsGuarded (execStartupWaitEnd s) := by
  unfold Machine.execStartupWaitEnd
  refine EndsGuarded.orFault ?_
  exact g.atExpiry_same _ fun _ => rfl

theorem execStartupIdEnd (g : Guarded s) (i : FlashId) : EndsGuarded (execStartupIdEnd i s) := by
  unfold Machine.execStartupIdEnd
  refine EndsGuarded.orFault (endsGuarded_next ?_)
  split
  · exact g.of_same (by simp)
  · exact g.of_same rfl

theorem execStartupStatusEnd (g : Guarded s) (b : Byte) : EndsGuarded (execStartupStatusEnd b s) := by
  unfold Machine.execStartupStatusEnd
  refine EndsGuarded.orFault (endsGuarded_next ?_)
  split_ifs
  · exact g.of_same (by simp)
  · exact g.of_same (by simp)
  · exact g.of_same rfl

theorem execStartupPollExpiry (g : Guarded s) : EndsGuarded (execStartupPollExpiry s) := by
  unfold Machine.execStartupPollExpiry
  refine EndsGuarded.orFault ?_
  exact g.atExpiry_same _ fun _ => rfl

theorem execStartupBusyLimit (g : Guarded s) : EndsGuarded (execStartupBusyLimit s) := by
  unfold Machine.execStartupBusyLimit
  dsimp only
  split_ifs
  · exact g.atExpiry_same _ fun u => startupFaulted_holdSide u _
  · exact g.atExpiry_same _ fun _ => rfl
  · exact endsGuarded_fault _

/-! ### Every command and every step -/

theorem exec (g : Guarded s) (c : Instr) : EndsGuarded (exec c s) := by
  cases c with
  | powerOn cap baud => exact endsGuarded_next (of_clearBlocks (s := s) rfl)
  | pinResetAssert => exact endsGuarded_next (of_clearBlocks (s := s) rfl)
  | pinResetRelease cap baud => exact g.execPinResetRelease cap baud
  | startupSettleEnd => exact g.execStartupSettleEnd
  | startupResetCommandEnd => exact g.execStartupResetEnd
  | startupRecoveryWaitEnd => exact g.execStartupWaitEnd
  | startupIdReadEnd i => exact g.execStartupIdEnd i
  | startupStatusReadEnd b => exact g.execStartupStatusEnd b
  | startupPollIntervalExpiry => exact g.execStartupPollExpiry
  | startupBusyLimitExpiry => exact g.execStartupBusyLimit
  | openSession v tag p => exact g.requestArrives .openSession v tag p
  | closeSession v tag p => exact g.requestArrives .closeSession v tag p
  | nop v tag p => exact g.requestArrives .nop v tag p
  | getStatus v tag p => exact g.requestArrives .getStatus v tag p
  | getStats v tag p => exact g.requestArrives .getStats v tag p
  | read v tag p => exact g.requestArrives .read v tag p
  | pin v tag p => exact g.requestArrives .pin v tag p
  | unpin v tag p => exact g.requestArrives .unpin v tag p
  | invalidate v tag p => exact g.requestArrives .invalidate v tag p
  | probeLine v tag p => exact g.requestArrives .probeLine v tag p
  | program v tag p => exact g.requestArrives .program v tag p
  | erase v tag p => exact g.requestArrives .erase v tag p
  | raw v tag p => exact g.requestArrives .raw v tag p
  | cancelJob v tag p => exact g.requestArrives .cancelJob v tag p
  | queryJob v tag p => exact g.requestArrives .queryJob v tag p
  | setProfile v tag p => exact g.requestArrives .setProfile v tag p
  | getProfile v tag p => exact g.requestArrives .getProfile v tag p
  | resetFlash v tag p => exact g.requestArrives .resetFlash v tag p
  | resetPart v tag p => exact g.requestArrives .resetPart v tag p
  | protect v tag p => exact g.requestArrives .protect v tag p
  | unprotect v tag p => exact g.requestArrives .unprotect v tag p
  | listProtect v tag p => exact g.requestArrives .listProtect v tag p
  | unknownKind v kind tag p => exact g.execUnknownKind v kind tag p
  | frameReject v r => exact g.execFrameReject v r
  | linkAOverrun => exact g.execLinkAOverrun
  | linkAIgnoredTransaction part => exact g.execLinkAIgnored part
  | fetch part => exact g.execFetch part
  | linkBOverrun => exact g.execLinkBOverrun
  | interByteTimerExpiry => exact g.execInterByteExpiry
  | linkBTransmitBegin cts => exact g.execTransmitBegin cts
  | linkBTransmitEnd => exact g.execTransmitEnd
  | fillArrival data => exact g.execFillArrival data
  | writeEnableEnd =>
    exact g.jobTransactionEnd_same .writeEnable (act := fun j t => t.begin (t.mainTransaction j)) fun _ _ => rfl
  | programTransactionEnd => exact g.jobTransactionEnd_same _ fun _ u => enterBusy_holdSide u
  | eraseTransactionEnd => exact g.jobTransactionEnd_same _ fun _ u => enterBusy_holdSide u
  | descriptorTransactionEnd data => exact g.execDescriptorEnd data
  | statusReadEnd b => exact g.jobTransactionEnd _ fun j u gu => gu.statusRead b j
  | pollIntervalExpiry => exact g.execPollExpiry
  | operationTimeout => exact g.execOperationTimeout
  | errorStatusReadEnd b => exact g.jobTransactionEnd _ fun j u gu => gu.errorStatusRead b j
  | clearStatusEnd => exact g.jobTransactionEnd _ fun j u gu => gu.finishJob _
  | verifyReadEnd data => exact g.execVerifyEnd data
  | holdTimeExpiry => exact g.execHoldExpiry
  | suspendCommandEnd =>
    exact g.jobTransactionEnd_same .suspendCommand
      (act := fun _ t => (t.updFsq (fun q => { q with suspendTime := 0 })).beginSuspendedRead) fun _ _ => rfl
  | suspendedStatusReadEnd b => exact g.jobTransactionEnd _ fun j u gu => gu.suspendedStatus b j
  | suspendPollIntervalExpiry => exact g.execSuspendPollExpiry
  | suspendTimeout => exact g.execSuspendTimeout
  | resumeEnd => exact g.execResumeEnd
  | recoveryResetCommandEnd => exact g.execRecoveryResetEnd
  | recoveryWaitEnd => exact g.execRecoveryWaitEnd
  | recoveryStatusReadEnd b => exact g.execRecoveryStatusEnd b
  | recoveryIdReadEnd i => exact g.execRecoveryIdEnd i
  | recoveryTimeout => exact g.execRecoveryTimeout
  | linkBByteReceived b => exact g.execByteReceived b

theorem step (g : Guarded s) : EndsGuarded (step s) := fun t e => by
  rcases step_next e with ⟨-, rfl⟩ | ⟨c, rest, -, done⟩
  · unfold State.tick
    split
    · exact g.of_same (advance_holdSide s 1)
    · exact g
  · exact Guarded.exec (s := { s with pending := rest }) (g.of_same rfl) c t done

end Guarded

/-- Settles O59: `Guarded` is R82 and R83 with what they rest on, and every command keeps it. -/
theorem stepKeepsHoldsClear : Obligations.StepKeepsHoldsClear :=
  fun _ t hs h => guarded_iff.mp ((guarded_iff.mpr hs).step t h)

end Sys2Proof.Machine
end

section
/-! PROOFS. A suspension begins: at the hold time, at the end of a status read, and with a new WAITING entry (R122 to R124). -/

namespace Sys2Proof.Machine

/-! ### The RUNNING job and its transaction -/

theorem jobSends_iff {s : State} {use : TransactionUse} {j : Job} :
    s.jobSends use j = true ↔ s.portIs use = true ∧ s.running = some j ∧ s.fsq.resetDue = false := by
  simp [State.jobSends, and_assoc]

/-- The RUNNING job is the head of the queue (R59). -/
theorem head_of_running {s : State} {j : Job} (h : s.running = some j) : s.head = some j ∧ j.phase.isSome = true := by
  unfold State.running at h
  split at h
  · next k head =>
    split at h
    · next phase =>
      cases h
      exact ⟨head, phase⟩
    · cases h
  · cases h

theorem jobs_of_running {s : State} {j : Job} (h : s.running = some j) : ∃ js, s.jq.jobs = j :: js :=
  List.head?_eq_some_iff.mp (head_of_running h).1

theorem phase_of_running {s : State} {j : Job} (h : s.running = some j) : s.phase = j.phase := by
  rw [State.phase, (head_of_running h).1]
  rfl

/-- At the end of the RUNNING job's transaction the act follows. -/
theorem jobTransactionEnd_of_sends {s : State} {use : TransactionUse} {j : Job} (h : s.jobSends use j = true)
    (act : Job → State → State) : jobTransactionEnd s use act = .next (act j s.endPort) :=
  have ⟨port, running, due⟩ := jobSends_iff.mp h
  jobTransactionEnd_act port running due

theorem readsSet_iff {mask b : Byte} : readsSet mask b = true ↔ b &&& mask ≠ 0 := by
  rw [readsSet, decide_eq_true_iff]

theorem readsSet_eq_false_iff {mask b : Byte} : readsSet mask b = false ↔ b &&& mask = 0 := by simp [readsSet]

/-! ### Time passes while the job is busy -/

/-- Only the head's busy time grows, so a RUNNING job stays so. -/
theorem advance_running (s : State) (n : Nat) :
    (s.advance n).running = s.running.map (fun j => { j with busyTime := j.busyTime + s.busyGrowth n }) := by
  have head : (s.advance n).head = s.head.map (fun j => { j with busyTime := j.busyTime + s.busyGrowth n }) := by
    show (s.jq.jobs.modifyHead _).head? = s.jq.jobs.head?.map _
    exact List.head?_modifyHead
  unfold State.running
  rw [head]
  cases s.head with
  | none => rfl
  | some j => cases phase : j.phase <;> simp [phase]

/-- Whether a suspension is wanted does not depend on the time. -/
theorem advance_suspensionWanted (s : State) (n : Nat) : (s.advance n).suspensionWanted = s.suspensionWanted := by
  unfold State.suspensionWanted
  rw [advance_running]
  cases s.running <;> rfl

/-- Between two status reads of the busy period the busy time grows by all that passes, up to the timeout (R108). -/
theorem busyGrowth_of_polling {s : State} {j : Job} (running : s.running = some j) (busy : j.phase = some .busy)
    (wait : s.fsq.wait = .poll) {n : Nat} (inTime : j.busyTime + n ≤ timeoutOf s.fsq.active j.kind) : s.busyGrowth n = n := by
  have grows : s.busyGrows = true := by simp [State.busyGrows, phase_of_running running, busy, wait]
  rw [State.busyGrowth, if_pos grows, running]
  exact min_eq_left (by omega)

theorem suspensionWanted_of_running {s : State} {j : Job} (h : s.running = some j) : s.suspensionWanted =
    (j.isErase && j.phase = some .busy && s.fsq.active.suspendEnable && s.oldestWaiting.isSome &&
      j.suspendCount < s.fsq.active.suspendLimit && s.fsq.pendingProfile.isNone) := by
  rw [State.suspensionWanted, h]

/-! ### The beginning of a suspension -/

theorem beginSuspension_eq (s : State) : s.beginSuspension =
    { s with
      jq := { s.jq with jobs := s.jq.jobs.modifyHead (fun x => { x with phase := some .suspending }) }
      fsq := { s.fsq.sending ⟨.suspendCommand, s.fsq.active.suspendCommand, [], [], 0, 0, 1⟩ with
        state := .suspending } } := rfl

/-- Between two status reads the hold time's end leads to R122 (R123). -/
theorem exec_holdTimeExpiry {s : State} {j : Job} (running : s.running = some j) (erase : j.isErase = true)
    (busy : j.phase = some .busy) (wait : s.fsq.wait = .poll) (early : s.fsq.segTime ≤ s.fsq.active.holdTime * 1000)
    {left : Nat} (hleft : left = s.fsq.active.holdTime * 1000 - s.fsq.segTime) (pass : s.canPass left = true)
    (inTime : j.busyTime + left ≤ timeoutOf s.fsq.active j.kind) : exec .holdTimeExpiry s =
      .next (if s.suspensionWanted = true then (s.advance left).beginSuspension else s.advance left) := by
  have grows : s.busyGrows = true := by simp [State.busyGrows, phase_of_running running, busy, wait]
  have growth := busyGrowth_of_polling running busy wait inTime
  have held : (s.advance left).fsq.active.holdTime * 1000 ≤ (s.advance left).fsq.segTime := by
    show s.fsq.active.holdTime * 1000 ≤ s.fsq.segTime + s.busyGrowth left
    omega
  have due : (s.advance left).suspensionDue = s.suspensionWanted := by
    rw [State.suspensionDue, advance_suspensionWanted, decide_eq_true held, Bool.and_true]
  show execHoldExpiry s = _
  unfold execHoldExpiry
  rw [running]
  simp only [← hleft, growth, erase, grows, early, wait, decide_true, Bool.and_self, if_true, ne_eq, not_true_eq_false,
    if_false]
  rw [atExpiry_of_canPass pass, due]

theorem exec_statusReadEnd {s : State} {j : Job} (sends : s.jobSends .statusRead j = true) (b : Byte) :
    exec (.statusReadEnd b) s = .next (s.endPort.statusRead b j) :=
  jobTransactionEnd_of_sends sends fun j t => t.statusRead b j

/-- A status read that reads busy before the timeout ends in a suspension, where one is due (R123). -/
theorem statusRead_suspends {s : State} {j : Job} {b : Byte} (busy : b &&& s.fsq.active.busyMask ≠ 0)
    (inTime : j.busyTime < timeoutOf s.fsq.active j.kind) (due : s.suspensionDue = true) :
    s.statusRead b j = s.beginSuspension := by
  rw [State.statusRead, if_neg (by simp [readsSet_iff.mpr busy]), if_neg (Nat.not_le.mpr inTime), if_pos due]

/-- Between two status reads of an erase FSQ begins a suspension, where one is due, or does nothing (R123). -/
theorem kick_of_job {s : State} (port : s.fsq.port = none) (state : s.fsq.state = .job) :
    s.kick = if s.suspensionDue = true then s.beginSuspension else s := by
  rw [State.kick, if_neg (by simp [port]), state]

/-- With an entry WAITING, R122 asks for the profile's leave, the count, no pending profile and the hold time. -/
theorem suspensionDue_iff {s : State} {j : Job} (running : s.running = some j) (erase : j.isErase = true)
    (busy : j.phase = some .busy) (waits : s.oldestWaiting.isSome = true) : s.suspensionDue = true ↔
      s.fsq.active.suspendEnable = true ∧ j.suspendCount < s.fsq.active.suspendLimit ∧ s.fsq.pendingProfile = none ∧
        s.fsq.active.holdTime * 1000 ≤ s.fsq.segTime := by
  simp [State.suspensionDue, suspensionWanted_of_running running, erase, busy, waits, and_assoc]

/-- Settles O50: each of the three moments of R123 comes to R122, and where it holds to the one event of R124. -/
theorem suspensionBegins : Obligations.SuspensionBegins := by
  intro j s running erase busy
  refine ⟨fun wait early pass inTime => ?_, fun b sends reads inTime due => ?_,
    fun l tag p state port plain miss fresh free slots => ?_⟩
  · have growth := busyGrowth_of_polling running busy wait inTime
    refine ⟨_, exec_holdTimeExpiry running erase busy wait early rfl pass inTime, fun wanted => ?_, fun unwanted => ?_⟩
    · rw [if_pos wanted, beginSuspension_eq]
      refine ⟨rfl, ?_, rfl, rfl, ?_, ⟨rfl, rfl, rfl⟩, rfl⟩
      · show s.fsq.segTime + s.busyGrowth _ = _
        omega
      · show (s.jq.jobs.modifyHead _).modifyHead _ = _
        rw [List.modifyHead_modifyHead, growth]
        rfl
    · rw [if_neg (by simp [unwanted])]
  · refine ⟨_, exec_statusReadEnd sends b, ?_⟩
    rw [statusRead_suspends (s := s.endPort) reads inTime due, beginSuspension_eq]
    exact ⟨rfl, rfl, rfl, rfl, ⟨rfl, rfl, rfl⟩, rfl⟩
  · have fsq := readEntered_fsq (l := l) (tag := tag) (p := p) (s := s)
    have jq := (readEntered_jobSide (l := l) (tag := tag) (p := p) (s := s)).1
    have fills := readEntered_fills (l := l) (tag := tag) (p := p) (s := s)
    have entered : (s.readEntered l tag p).running = some j := by
      rw [State.running, State.head, jq]
      exact running
    have waits : (s.readEntered l tag p).oldestWaiting.isSome = true := by
      rw [State.oldestWaiting, fills, List.find?_isSome]
      exact ⟨_, List.mem_append_right _ List.mem_cons_self, by simp [newFill]⟩
    have due := suspensionDue_iff entered erase busy waits
    refine ⟨_, plainRead_creates (plainRead_iff plain) miss (by simp [state]) fresh free slots, ?_⟩
    rw [kick_of_job (by rwa [fsq]) (by rwa [fsq])]
    rw [fsq] at due
    by_cases all : (s.readEntered l tag p).suspensionDue = true
    · rw [if_pos all, if_pos (due.mp all), beginSuspension_eq, fsq, jq]
      exact ⟨fills, rfl, rfl, rfl⟩
    · rw [if_neg all, if_neg (mt due.mpr all)]
      exact ⟨fills, rfl, fsq, jq⟩

end Sys2Proof.Machine
end

section
/-! PROOFS. The RUNNING job ends (R69): what it leaves of the queue, the counts and the FIFOs, whatever FSQ then does of itself. -/

namespace Sys2Proof.Machine

/-! ### Messages are placed last -/

/-- Each FIFO has at most gained messages at its end, and the SUSPENSION counter stands. -/
structure Appends (s t : State) : Prop where
  fifo : ∀ l, (s.link l).fifo <+: (t.link l).fifo
  suspension : t.counters.suspension = s.counters.suspension

namespace Appends

variable {s t u : State}

/-- No message is placed. -/
theorem of_links (links : ∀ l, t.link l = s.link l) (suspension : t.counters.suspension = s.counters.suspension) :
    Appends s t := ⟨fun l => by rw [links], suspension⟩

theorem refl (s : State) : Appends s s := of_links (fun _ => rfl) rfl

theorem trans (h : Appends s t) (g : Appends t u) : Appends s u :=
  ⟨fun l => (h.fifo l).trans (g.fifo l), g.suspension.trans h.suspension⟩

theorem foldl {α : Type} {f : State → α → State} (h : ∀ (s : State) (x : α), Appends s (f s x)) (xs : List α) (s : State) :
    Appends s (xs.foldl f s) := by
  induction xs generalizing s with
  | nil => exact refl s
  | cons x xs ih => exact (h s x).trans (ih _)

theorem place (s : State) (l : Link) (x : Byte) (m : Message) : Appends s (s.place l x m) := by
  refine ⟨fun k => ?_, by rw [place_counters]⟩
  by_cases e : k = l
  · subst e
    rw [place_link, place_fifo]
    split
    · exact List.prefix_append ..
    · exact List.prefix_rfl
  · rw [place_link_other _ _ _ _ _ e]

theorem failNeed (s : State) (w : Waiter) : Appends s (s.failNeed w) := by
  refine of_links (State.TablesOnly.failNeed s w).links.link ?_
  unfold State.failNeed
  split
  · rfl
  · dsimp only
    split <;> rfl

theorem attach (s : State) (a : Nat) (w : Waiter) : Appends s (s.attach a w) := of_links (fun _ => rfl) rfl

theorem countBypass (s : State) : Appends s s.countBypass := of_links (fun _ => rfl) rfl

theorem createFill (s : State) (a : Nat) (v : Option (Fin 4)) (w : Waiter) : Appends s (s.createFill a v w) := by
  have entered : Appends s (State.setNeed { s with fills := s.fills ++ [freshFill a v w] } w .waitFill) :=
    of_links (fun _ => rfl) rfl
  exact entered.trans (foldl (fun t w => attach t a w) _ _)

theorem missCreate (s : State) (r : Record) (w : Waiter) : Appends s (s.missCreate r w) := by
  unfold State.missCreate
  dsimp only
  split
  · exact trans (t := s.updSet _ _) (of_links (fun _ => rfl) rfl) (createFill _ _ _ _)
  · split
    · exact (createFill s _ _ _).trans (countBypass _)
    · exact of_links (fun _ => rfl) rfl

theorem missNeed (s : State) (r : Record) (w : Waiter) : Appends s (s.missNeed r w) := by
  refine trans (t := s.countMiss) (of_links (fun _ => rfl) rfl) ?_
  unfold State.missNeed
  dsimp only
  split_ifs
  · exact failNeed _ _
  · exact of_links (fun _ => rfl) rfl
  · exact missCreate _ _ _
  · exact of_links (fun _ => rfl) rfl

theorem lookup (s : State) (w : Waiter) : Appends s (s.lookup w) := by
  unfold State.lookup
  split
  · exact refl s
  · dsimp only
    split
    · split <;> exact of_links (fun _ => rfl) rfl
    · exact missNeed _ _ _

theorem lookups (s : State) (id : RecordId) (is : List Nat) : Appends s (s.lookups id is) :=
  foldl (fun t _ => lookup t _) is s

theorem settle (s : State) (id : RecordId) : Appends s (s.settle id) := by
  unfold State.settle
  split
  · exact refl s
  · next r _ =>
    split
    · exact trans (t := { s.withdraw r.id with records := (s.withdraw r.id).records.filter (fun q => q.id ≠ r.id) })
        (of_links (fun _ => rfl) rfl) (place _ _ _ _)
    · exact refl s

theorem release (s : State) (id : RecordId) : Appends s (s.release id) := by
  unfold State.release
  split
  · exact refl s
  · have active : Appends s (s.updRecord id (fun q => { q with state := .active })) := of_links (fun _ => rfl) rfl
    exact (active.trans (lookups ..)).trans (settle ..)

/-- At the end of a hold the READs that are released may be answered. -/
theorem reexamine (s : State) : Appends s s.reexamine := by
  refine foldl (fun t id => ?_) _ s
  unfold State.reexamineOne
  split
  · exact refl t
  · split
    · exact release _ _
    · exact refl t

end Appends

/-! ### What FSQ does once a job has ended -/

/-- Of the jobs only phases have changed, and each FIFO has at most gained messages at its end. -/
structure KeepsJobs (s t : State) : Prop where
  ids : t.jq.jobs.map Job.id = s.jq.jobs.map Job.id
  nextId : t.jq.nextId = s.jq.nextId
  history : t.jq.history = s.jq.history
  staging : t.staging = s.staging
  protection : t.protection = s.protection
  counters : t.counters = s.counters
  fifo : ∀ l, (s.link l).fifo <+: (t.link l).fifo

namespace KeepsJobs

variable {s t u : State}

theorem trans (h : KeepsJobs s t) (g : KeepsJobs t u) : KeepsJobs s u where
  ids := g.ids.trans h.ids
  nextId := g.nextId.trans h.nextId
  history := g.history.trans h.history
  staging := g.staging.trans h.staging
  protection := g.protection.trans h.protection
  counters := g.counters.trans h.counters
  fifo l := (h.fifo l).trans (g.fifo l)

theorem updFsq (s : State) (f : Fsq → Fsq) : KeepsJobs s (s.updFsq f) :=
  ⟨rfl, rfl, rfl, rfl, rfl, rfl, fun _ => List.prefix_rfl⟩

theorem refl (s : State) : KeepsJobs s s := updFsq s id

theorem answerProfile (s : State) (p : PendingProfile) (st : Status) : KeepsJobs s (s.answerProfile p st) := by
  unfold State.answerProfile
  split
  · exact refl s
  · exact ⟨by rw [place_jq], by rw [place_jq], by rw [place_jq], place_staging .., place_protection .., place_counters ..,
      (Appends.place ..).fifo⟩

theorem applyProfile (s : State) : KeepsJobs s s.applyProfile := by
  unfold State.applyProfile
  split
  · exact refl s
  · exact (updFsq s _).trans (answerProfile ..)

theorem serveOldest (s : State) : KeepsJobs s s.serveOldest := by
  unfold State.serveOldest
  split
  · exact ⟨rfl, rfl, rfl, rfl, rfl, rfl, fun _ => List.prefix_rfl⟩
  · exact refl s

theorem startJob (s : State) (j : Job) : KeepsJobs s (s.startJob j) := by
  refine ⟨?_, rfl, rfl, rfl, rfl, rfl, fun _ => List.prefix_rfl⟩
  rw [startJob_eq]
  cases s.jq.jobs <;> rfl

theorem choose (s : State) : KeepsJobs s s.choose := by
  unfold State.choose
  split
  · split
    · exact startJob ..
    · exact serveOldest s
  · exact serveOldest s

end KeepsJobs

/-- From READY FSQ applies a profile and then serves or starts something, or only serves before a RESET_FLASH (log 30). -/
theorem finishJob_keepsJobs (s : State) (o : Status) : KeepsJobs (s.endJob 0 o) (s.finishJob o) := by
  have ready : KeepsJobs (s.endJob 0 o) ((s.endJob 0 o).setFlash .ready) := .updFsq ..
  refine ready.trans ?_
  unfold State.finishJob
  dsimp only
  split
  · exact (KeepsJobs.applyProfile _).trans (.serveOldest _)
  · exact (KeepsJobs.applyProfile _).trans (.choose _)

theorem timeOutJob_keepsJobs (s : State) : KeepsJobs (s.endJob 0 .flashTimeout) s.timeOutJob :=
  ⟨rfl, rfl, rfl, rfl, rfl, rfl, fun _ => List.prefix_rfl⟩

/-! ### The job is gone -/

theorem countJob_of_ne {o : Status} (h : o ≠ .cancelled) (c : Counters) :
    (c.countJob o).jobOk = c.jobOk + (if o = .ok then 1 else 0) ∧
    (c.countJob o).jobFailed = c.jobFailed + (if o = .ok then 0 else 1) ∧ (c.countJob o).suspension = c.suspension := by
  unfold Counters.countJob
  split
  · simp
  · exact absurd rfl h
  · next failed _ => exact ⟨by rw [if_neg failed]; simp, by rw [if_neg failed], rfl⟩

section HeadEnds

variable {s t : State} {j : Job} {js : List Job} {o : Status}

/-- After the notice only replies of released READs are placed. -/
theorem jobEnded_appends (jobs : s.jq.jobs = j :: js) (o : Status) : Appends (s.jobEnded j js o) (s.endJob 0 o) := by
  rw [endJob_eq jobs]
  split
  · exact .reexamine _
  · exact .refl _

theorem endJob_suspension (jobs : s.jq.jobs = j :: js) (ends : o ≠ .cancelled) :
    (s.endJob 0 o).counters.suspension = s.counters.suspension := by
  rw [(jobEnded_appends jobs o).suspension, (jobEnded_places s j js o).counters]
  exact (countJob_of_ne ends s.counters).2.2

/-- JOB_DONE stands next in the FIFO of the job's link, if it is to be delivered there (R71). -/
theorem endJob_fifo (jobs : s.jq.jobs = j :: js) (o : Status) (deliver : j.deliver = true)
    (reserved : j.session ∈ (s.link j.origin).reserved) (isOpen : (s.link j.origin).isOpen = true) :
    ((s.link j.origin).fifo ++ [jobDoneNotice j o]) <+: ((s.endJob 0 o).link j.origin).fifo := by
  have taken : (s.jobTaken j js o).link j.origin = s.link j.origin := by cases j.origin <;> rfl
  have notified : ((s.jobEnded j js o).link j.origin).fifo = (s.link j.origin).fifo ++ [jobDoneNotice j o] := by
    rw [State.jobEnded, State.notifyJob, if_pos deliver, place_link, taken, place_fifo, if_pos ⟨reserved, isOpen⟩]
  rw [← notified]
  exact (jobEnded_appends jobs o).fifo _

/-- What is said of the RUNNING job's end holds whatever FSQ then does of itself. -/
theorem jobGone_of_endJob (jobs : s.jq.jobs = j :: js) (ends : o ≠ .cancelled) (after : KeepsJobs (s.endJob 0 o) t) :
    JobGone j o s t := by
  obtain ⟨jq, -, staging, protection, ok, failed, -⟩ := endJob_head jobs o
  obtain ⟨countOk, countFailed, -⟩ := countJob_of_ne ends s.counters
  refine ⟨?_, ?_, ?_, after.staging.trans staging, ?_, ?_, after.protection.trans protection,
    fun deliver reserved isOpen => (endJob_fifo jobs o deliver reserved isOpen).trans (after.fifo _)⟩
  · rw [after.ids, jq, jobs]
    rfl
  · rw [after.nextId, jq]
  · rw [after.history, jq]
  · rw [after.counters, ok, countOk]
  · rw [after.counters, failed, countFailed]

theorem finishJob_jobGone (jobs : s.jq.jobs = j :: js) (ends : o ≠ .cancelled) : JobGone j o s (s.finishJob o) :=
  jobGone_of_endJob jobs ends (finishJob_keepsJobs s o)

theorem timeOutJob_jobGone (jobs : s.jq.jobs = j :: js) : JobGone j .flashTimeout s s.timeOutJob :=
  jobGone_of_endJob jobs (by simp) (timeOutJob_keepsJobs s)

theorem finishJob_suspension (jobs : s.jq.jobs = j :: js) (ends : o ≠ .cancelled) :
    (s.finishJob o).counters.suspension = s.counters.suspension := by
  rw [(finishJob_keepsJobs s o).counters, endJob_suspension jobs ends]

theorem timeOutJob_suspension (jobs : s.jq.jobs = j :: js) : s.timeOutJob.counters.suspension = s.counters.suspension := by
  rw [(timeOutJob_keepsJobs s).counters, endJob_suspension jobs (by simp)]

/-- A job that times out leaves FSQ in its first attempt of recovery (R134, R135). -/
theorem timeOutJob_recovery (jobs : s.jq.jobs = j :: js) : RecoveryBegun s.fsq false s.timeOutJob.fsq := by
  have fsq : s.timeOutJob.fsq =
      { (s.endJob 0 .flashTimeout).fsq.sending
          (oneByte .recoveryReset1 (s.endJob 0 .flashTimeout).fsq.active.firstReset) with
        state := .recovering, cause := .none, attempt := 1, recoveryTime := 0, probe := false, origin := .job,
        resetDue := false } := rfl
  rw [fsq, (endJob_head jobs .flashTimeout).2.1]
  exact ⟨rfl, rfl, rfl, rfl, rfl, rfl, rfl, rfl⟩

end HeadEnds

/-! ### What is said of a job's end does not depend on FSQ and the timers -/

/-- The states differ at most in the head job's record, in FSQ and beside the slots of the links. -/
structure AlikeAtEnd (s u : State) : Prop where
  tail : u.jq.jobs.tail = s.jq.jobs.tail
  nextId : u.jq.nextId = s.jq.nextId
  history : u.jq.history = s.jq.history
  staging : u.staging = s.staging
  protection : u.protection = s.protection
  counters : u.counters = s.counters
  links : ∀ l, (u.link l).fifo = (s.link l).fifo ∧ (u.link l).reserved = (s.link l).reserved ∧
    (u.link l).isOpen = (s.link l).isOpen

theorem AlikeAtEnd.trans {s t u : State} (h : AlikeAtEnd s t) (g : AlikeAtEnd t u) : AlikeAtEnd s u where
  tail := g.tail.trans h.tail
  nextId := g.nextId.trans h.nextId
  history := g.history.trans h.history
  staging := g.staging.trans h.staging
  protection := g.protection.trans h.protection
  counters := g.counters.trans h.counters
  links l :=
    have ⟨fifo, reserved, isOpen⟩ := h.links l
    have ⟨fifo', reserved', isOpen'⟩ := g.links l
    ⟨fifo'.trans fifo, reserved'.trans reserved, isOpen'.trans isOpen⟩

theorem updFsq_alike (s : State) (f : Fsq → Fsq) : AlikeAtEnd s (s.updFsq f) :=
  ⟨rfl, rfl, rfl, rfl, rfl, rfl, fun _ => ⟨rfl, rfl, rfl⟩⟩

theorem endPort_alike (s : State) : AlikeAtEnd s s.endPort := updFsq_alike ..

theorem updHead_alike (s : State) (f : Job → Job) : AlikeAtEnd s (s.updHead f) :=
  ⟨List.tail_modifyHead, rfl, rfl, rfl, rfl, rfl, fun _ => ⟨rfl, rfl, rfl⟩⟩

theorem advance_alike (s : State) (n : Nat) : AlikeAtEnd s (s.advance n) :=
  ⟨List.tail_modifyHead, rfl, rfl, rfl, rfl, rfl, fun l => by cases l <;> exact ⟨rfl, rfl, rfl⟩⟩

theorem freeStaging_of_staging {s u : State} (h : u.staging = s.staging) (j : Job) :
    (u.freeStaging j).staging = (s.freeStaging j).staging := by
  unfold State.freeStaging
  split
  · exact h
  · dsimp only
    rw [h]

/-- Nor on the phase in which the job ends. -/
theorem JobGone.of_alike {j : Job} {p : Option Phase} {o : Status} {s u t : State}
    (h : JobGone { j with phase := p } o u t) (alike : AlikeAtEnd s u) : JobGone j o s t := by
  obtain ⟨ids, nextId, history, staging, ok, failed, protection, fifo⟩ := h
  obtain ⟨fifo', reserved, isOpen⟩ := alike.links j.origin
  refine ⟨by rw [ids, alike.tail], nextId.trans alike.nextId, ?_, staging.trans (freeStaging_of_staging alike.staging j), ?_, ?_,
    protection.trans alike.protection, ?_⟩
  · rw [history, alike.history]
    rfl
  · rw [ok, alike.counters]
  · rw [failed, alike.counters]
  · rw [← fifo', ← reserved, ← isOpen]
    exact fifo

end Sys2Proof.Machine
end

section
/-! PROOFS. FSQ goes on from READY after the RUNNING job's end (R100, R101, R111, R115), also before a RESET_FLASH of the same
instant (R112, log 30). -/

namespace Sys2Proof.Machine

/-! ### A placed message and the RESET_FLASH that waits next -/

/-- A frame is received on the one link as on the other; the FREE slots of a CLOSED link are not asked for. -/
structure LinkState.ReceivesAlike (k m : LinkState) : Prop where
  isOpen : m.isOpen = k.isOpen
  receiver : m.receiver = k.receiver
  buffer : m.buffer = k.buffer
  free : k.isOpen = true → m.freeSlots = k.freeSlots

namespace LinkState.ReceivesAlike

theorem refl (k : LinkState) : k.ReceivesAlike k := ⟨rfl, rfl, rfl, fun _ => rfl⟩

/-- A placement turns a RESERVED slot of an OPEN link into an OCCUPIED one (R160). -/
theorem place (k : LinkState) (x : Byte) (m : Message) : k.ReceivesAlike (k.place x m) := by
  refine ⟨place_isOpen .., place_receiver .., place_buffer .., fun isOpen => ?_⟩
  by_cases held : x ∈ k.reserved
  · have count : (k.reserved.erase x).length + 1 = k.reserved.length := List.length_erase_add_one held
    have placed : (k.place x m).reserved.length + (k.place x m).fifo.length = k.reserved.length + k.fifo.length := by
      rw [place_reserved, place_fifo, if_pos held, if_pos ⟨held, isOpen⟩, List.length_append, List.length_singleton]
      omega
    rw [LinkState.freeSlots, placed, LinkState.freeSlots]
  · have same : k.place x m = k := if_neg held
    rw [same]

end LinkState.ReceivesAlike

section ReceivesAlike

variable {s t : State} (pins : t.pins = s.pins) (spi : t.spi = s.spi) (state : t.fsq.state = s.fsq.state)
  (links : ∀ l, (s.link l).ReceivesAlike (t.link l))
include pins spi state links

theorem acceptsReset_of_alike (l : Link) (tag : Byte) : t.acceptsReset l tag = s.acceptsReset l tag := by
  obtain ⟨isOpen, receiver, buffer, free⟩ := links l
  cases opened : (s.link l).isOpen with
  | false => simp [State.acceptsReset, isOpen, opened]
  | true =>
    have ready : t.ready l = s.ready l := by
      simp only [State.ready, LinkState.holdsWhole, pins, state, buffer, free opened]
    rw [State.acceptsReset, State.acceptsReset, isOpen]
    cases l
    · have receivingA : t.receivingA = s.receivingA := by
        rw [State.receivingA, spi, show t.linkA.receiver = s.linkA.receiver from receiver, State.receivingA]
      simp only [State.takes, pins, spi, ready, receivingA, show t.linkA.buffer = s.linkA.buffer from buffer]
    · simp only [State.takes, pins, ready, show t.linkB.buffer = s.linkB.buffer from buffer,
        show t.linkB.receiver = s.linkB.receiver from receiver]

/-- The same RESET_FLASH waits next, or none. -/
theorem resetNext_of_alike (pending : t.pending = s.pending) : t.resetNext = s.resetNext := by
  have accepts := acceptsReset_of_alike pins spi state links
  obtain ⟨isOpen, receiver, buffer, -⟩ := links .b
  have lastByte : ∀ b, t.lastByteOfReset b = s.lastByteOfReset b := fun b => by
    simp only [State.lastByteOfReset, pins, show t.linkB.buffer = s.linkB.buffer from buffer,
      show t.linkB.receiver = s.linkB.receiver from receiver, show t.linkB.isOpen = s.linkB.isOpen from isOpen]
  simp only [State.resetNext, pending, accepts, lastByte]

end ReceivesAlike

theorem place_resetNext (s : State) (l : Link) (x : Byte) (m : Message) : (s.place l x m).resetNext = s.resetNext := by
  refine resetNext_of_alike (place_pins ..) (place_spi ..) (by rw [place_fsq]) (fun k => ?_) (place_pending ..)
  by_cases own : k = l
  · subst own
    rw [place_link]
    exact .place ..
  · rw [place_link_other _ _ _ _ _ own]
    exact .refl _

/-! ### What FSQ has when it enters READY -/

/-- The RUNNING job has ended with no record to release, and FSQ is READY. -/
def State.jobDone (s : State) (j : Job) (js : List Job) (o : Status) : State := (s.jobEnded j js o).setFlash .ready

/-- FSQ goes on: it applies a profile, and then arbitrates, or only serves before a RESET_FLASH (log 30). -/
theorem finishJob_eq (s : State) (o : Status) : s.finishJob o =
    if ((s.endJob 0 o).setFlash .ready).resetNext.isSome = true
    then ((s.endJob 0 o).setFlash .ready).applyProfile.serveOldest
    else ((s.endJob 0 o).setFlash .ready).applyProfile.choose := rfl

section JobDone

variable {s : State} {j : Job} {js : List Job} {o : Status}

theorem jobDone_readSide : ReadSideSame s (s.jobDone j js o) :=
  have placed := jobEnded_places s j js o
  ⟨placed.records, placed.cache, placed.fills⟩

theorem jobDone_jobs : (s.jobDone j js o).jq.jobs = js := congrArg JobQueue.jobs (jobEnded_places s j js o).jq

theorem jobDone_fsq : (s.jobDone j js o).fsq = { s.fsq with state := .ready, burst := 0 } :=
  congrArg (fun q : Fsq => { q with state := .ready }) (jobEnded_places s j js o).fsq

theorem jobDone_oldestWaiting : (s.jobDone j js o).oldestWaiting = s.oldestWaiting := by
  rw [State.oldestWaiting, jobDone_readSide.2.2, State.oldestWaiting]

theorem jobDone_head : (s.jobDone j js o).head = js.head? := by rw [State.head, jobDone_jobs]

/-- JOB_DONE takes no slot, so it makes no link unready for a RESET_FLASH. -/
theorem jobDone_resetNext : (s.jobDone j js o).resetNext = (s.setFlash .ready).resetNext := by
  unfold State.jobDone State.jobEnded State.notifyJob
  split
  · have moved : ∀ (u : State) (l : Link) (x : Byte) (m : Message),
        (u.place l x m).setFlash .ready = (u.setFlash .ready).place l x m := fun u l x m => by cases l <;> rfl
    rw [moved, place_resetNext]
    rfl
  · rfl

/-- With no record PARKED and no profile pending, FSQ goes on from there. -/
theorem finishJob_of_active (jobs : s.jq.jobs = j :: js) (profile : s.fsq.pendingProfile = none)
    (active : ∀ r ∈ s.records, r.state = .active) : s.finishJob o =
      if (s.setFlash .ready).resetNext.isSome = true then (s.jobDone j js o).serveOldest
      else (s.jobDone j js o).choose := by
  have ended : (s.endJob 0 o).setFlash .ready = s.jobDone j js o := by
    rw [endJob_eq jobs, reexamine_of_active (by rwa [(jobEnded_places s j js o).records]), ite_self]
    rfl
  rw [finishJob_eq, ended, applyProfile_eq_self (by rw [jobDone_fsq]; exact profile), jobDone_resetNext]

end JobDone

/-! ### The profile, the oldest WAITING entry, the next job -/

theorem applyProfile_fsq {s : State} {p : PendingProfile} (h : s.fsq.pendingProfile = some p) :
    s.applyProfile.fsq = { s.fsq with active := p.profile, pendingProfile := none } := by
  unfold State.applyProfile
  rw [h]
  exact (OnlyPlaces.answerProfile _ p .ok).fsq

theorem serveOldest_profile (s : State) :
    s.serveOldest.fsq.active = s.fsq.active ∧ s.serveOldest.fsq.pendingProfile = s.fsq.pendingProfile := by
  unfold State.serveOldest
  split <;> exact ⟨rfl, rfl⟩

theorem choose_profile (s : State) :
    s.choose.fsq.active = s.fsq.active ∧ s.choose.fsq.pendingProfile = s.fsq.pendingProfile := by
  unfold State.choose
  split
  · split
    · exact ⟨rfl, rfl⟩
    · exact serveOldest_profile s
  · exact serveOldest_profile s

/-- A pending profile is active after the job's end (R115). -/
theorem finishJob_profile {s : State} {j : Job} {js : List Job} {p : PendingProfile} (jobs : s.jq.jobs = j :: js)
    (profile : s.fsq.pendingProfile = some p) (o : Status) :
    (s.finishJob o).fsq.active = p.profile ∧ (s.finishJob o).fsq.pendingProfile = none := by
  have pending : ((s.endJob 0 o).setFlash .ready).fsq.pendingProfile = some p := by
    rw [setFlash_fsq, (endJob_head jobs o).2.1]
    exact profile
  have applied := applyProfile_fsq pending
  rw [finishJob_eq]
  split
  · obtain ⟨active, none_pends⟩ := serveOldest_profile ((s.endJob 0 o).setFlash .ready).applyProfile
    rw [active, none_pends, applied]
    exact ⟨rfl, rfl⟩
  · obtain ⟨active, none_pends⟩ := choose_profile ((s.endJob 0 o).setFlash .ready).applyProfile
    rw [active, none_pends, applied]
    exact ⟨rfl, rfl⟩

/-- A QUEUED head is started where no entry is WAITING (R101). -/
theorem choose_of_none_waits {s : State} {k : Job} (head : s.head = some k) (queued : k.phase = none)
    (oldest : s.oldestWaiting = none) : s.choose = s.startJob k := by
  rw [State.choose, head]
  simp [queued, oldest]

section GoesOn

variable {s : State} {j : Job} {js : List Job} {o : Status} (jobs : s.jq.jobs = j :: js)
  (profile : s.fsq.pendingProfile = none) (active : ∀ r ∈ s.records, r.state = .active)
include jobs profile active

/-- The oldest WAITING entry is served, with the burst counter at 0 (R101, R103). -/
theorem finishJob_serves {f : Fill} (oldest : s.oldestWaiting = some f) :
    s.finishJob o = (s.jobDone j js o).serveFill f := by
  have waits : (s.jobDone j js o).oldestWaiting = some f := jobDone_oldestWaiting.trans oldest
  rw [finishJob_of_active jobs profile active, serveOldest_of_some waits]
  cases js with
  | nil => rw [choose_of_no_job jobDone_head, serveOldest_of_some waits, ite_self]
  | cons k ks => rw [choose_of_burst_ne jobDone_head waits (by simp [jobDone_fsq]), ite_self]

theorem finishJob_readSide : (s.finishJob o).records = s.records ∧ (s.finishJob o).cache = s.cache := by
  obtain ⟨records, cache, -⟩ := jobDone_readSide (s := s) (j := j) (js := js) (o := o)
  rw [finishJob_of_active jobs profile active]
  split
  · exact ⟨(serveOldest_flashSide _).records.trans records, (serveOldest_flashSide _).cache.trans cache⟩
  · exact ⟨(choose_flashSide _).records.trans records, (choose_flashSide _).cache.trans cache⟩

end GoesOn

/-- With the port free, FSQ goes on from READY after the RUNNING job's end. -/
theorem finishJob_goesOn {s : State} {j : Job} {js : List Job} (jobs : s.jq.jobs = j :: js) (port : s.fsq.port = none)
    (o : Status) : FsqGoesOn s (s.finishJob o) := by
  have ready : (s.jobDone j js o).fsq = { s.fsq with port := none, state := .ready, burst := 0 } := by
    rw [jobDone_fsq, ← port]
  have fills : (s.jobDone j js o).fills = s.fills := jobDone_readSide.2.2
  refine ⟨fun p pending => finishJob_profile jobs pending o, fun profile active queued => ?_⟩
  obtain ⟨records, cache⟩ := finishJob_readSide (o := o) jobs profile active
  refine ⟨records, cache, fun f oldest => ?_, fun oldest => ?_⟩
  · rw [finishJob_serves jobs profile active oldest, serveFill_eq, fills, ready, jobs]
    refine ⟨rfl, jobDone_jobs, ?_⟩
    rw [jobs] at queued
    cases js with
    | nil => rw [State.headQueued, jobDone_head]; rfl
    | cons k ks => rw [headQueued_of_head jobDone_head (queued k List.mem_cons_self)]; rfl
  · have idle : (s.jobDone j js o).serveOldest = s.jobDone j js o :=
      serveOldest_of_none (jobDone_oldestWaiting.trans oldest)
    rw [finishJob_of_active jobs profile active, idle, jobs]
    rw [jobs] at queued
    cases js with
    | nil =>
      rw [choose_of_no_job jobDone_head, idle, ite_self]
      exact ⟨fills, fun _ => ready, fun k rest e => nomatch e⟩
    | cons k ks =>
      rw [choose_of_none_waits jobDone_head (queued k List.mem_cons_self) (jobDone_oldestWaiting.trans oldest)]
      refine ⟨?_, (fun e => nomatch e), fun i rest e => ?_⟩
      · split <;> exact fills
      · cases e
        cases (s.setFlash .ready).resetNext with
        | none =>
          have started := startJob_jobStarted (jobDone_head (s := s) (j := j) (js := k :: ks) (o := o))
          rw [ready] at started
          exact started
        | some l => exact ⟨jobDone_jobs, ready⟩

/-- What is said of how FSQ goes on does not depend on the head's record, the port and the flash state. -/
theorem FsqGoesOn.of_head {s t : State} {f : Job → Job} {x : FlashState}
    (h : FsqGoesOn ((s.endPort.updHead f).setFlash x) t) : FsqGoesOn s t := by
  have fsq : ((s.endPort.updHead f).setFlash x).fsq = { s.fsq with port := none, state := x } := rfl
  have tail : ((s.endPort.updHead f).setFlash x).jq.jobs.tail = s.jq.jobs.tail := List.tail_modifyHead
  have oldest : ((s.endPort.updHead f).setFlash x).oldestWaiting = s.oldestWaiting := rfl
  have next : (((s.endPort.updHead f).setFlash x).setFlash .ready).resetNext = (s.setFlash .ready).resetNext := rfl
  unfold FsqGoesOn at h
  rw [fsq, tail, oldest, next] at h
  exact h

end Sys2Proof.Machine
end

section
/-! PROOFS. From the suspend command to the resume (R124 to R128). -/

namespace Sys2Proof.Machine

/-! ### The end of a suspended-status read -/

theorem exec_suspendedStatusReadEnd {s : State} {j : Job} (sends : s.jobSends .suspendedStatusRead j = true) (b : Byte) :
    exec (.suspendedStatusReadEnd b) s = .next (s.endPort.suspendedStatus b j) :=
  jobTransactionEnd_of_sends sends fun j t => t.suspendedStatus b j

section SuspendedStatus

variable {s : State} {j : Job} {b : Byte}

/-- Case 1 of R125: the device has suspended the erase. -/
theorem suspendedStatus_suspended (reads : b &&& s.fsq.active.suspendedMask ≠ 0) :
    s.suspendedStatus b j = s.enterSuspended := if_pos (readsSet_iff.mpr reads)

/-- Case 2: the erase has ended; the busy period ends as by a status read (R109). -/
theorem suspendedStatus_ended (clear : b &&& s.fsq.active.suspendedMask = 0)
    (own : s.fsq.active.suspendedStatus = s.fsq.active.statusCommand) (idle : b &&& s.fsq.active.busyMask = 0) :
    s.suspendedStatus b j = ((s.setPhase .busy).setFlash .job).busyEnded j := by
  simp [State.suspendedStatus, readsSet_eq_false_iff.mpr clear, readsSet_eq_false_iff.mpr idle, own]

/-- Case 3: polling goes on, unless the suspend timeout has been reached in the read (R126). -/
theorem suspendedStatus_neither (clear : b &&& s.fsq.active.suspendedMask = 0)
    (other : s.fsq.active.suspendedStatus ≠ s.fsq.active.statusCommand ∨ b &&& s.fsq.active.busyMask ≠ 0) :
    s.suspendedStatus b j =
      if s.fsq.active.suspendTimeout ≤ s.fsq.suspendTime then s.timeOutJob else s.beginWait .suspendPoll := by
  have unread := readsSet_eq_false_iff.mpr clear
  obtain other | busy := other
  · simp [State.suspendedStatus, unread, other]
  · simp [State.suspendedStatus, unread, readsSet_iff.mpr busy]

theorem suspendedStatus_polls (clear : b &&& s.fsq.active.suspendedMask = 0)
    (other : s.fsq.active.suspendedStatus ≠ s.fsq.active.statusCommand ∨ b &&& s.fsq.active.busyMask ≠ 0)
    (early : s.fsq.suspendTime < s.fsq.active.suspendTimeout) : s.suspendedStatus b j = s.beginWait .suspendPoll :=
  (suspendedStatus_neither clear other).trans (if_neg (Nat.not_le.mpr early))

theorem suspendedStatus_timesOut (clear : b &&& s.fsq.active.suspendedMask = 0)
    (other : s.fsq.active.suspendedStatus ≠ s.fsq.active.statusCommand ∨ b &&& s.fsq.active.busyMask ≠ 0)
    (late : s.fsq.active.suspendTimeout ≤ s.fsq.suspendTime) : s.suspendedStatus b j = s.timeOutJob :=
  (suspendedStatus_neither clear other).trans (if_pos late)

/-- An erase with no error-status command ends with OK as its busy period ends (R109, R111). -/
theorem busyEnded_erase (erase : j.isErase = true) (error : s.fsq.active.errorStatus = 0) :
    s.busyEnded j = s.finishJob .ok := by
  have kinds : j.kind = .eraseSector ∨ j.kind = .eraseBlock := by simpa [Job.isErase] using erase
  obtain kind | kind := kinds <;> simp [State.busyEnded, State.checkPassed, kind, error]

end SuspendedStatus

/-! ### SUSPENDED -/

/-- The device has suspended the erase; fill service is still to be decided (R125). -/
def State.nowSuspended (s : State) : State :=
  ((s.setPhase .suspended).setFlash .suspended).updFsq (fun q => { q with fillsServed := 0 })

theorem nowSuspended_resume_fills (s : State) : s.nowSuspended.beginResume.fills = s.fills := by
  simp [State.nowSuspended, State.beginResume]

theorem enterSuspended_eq (s : State) : s.enterSuspended = s.nowSuspended.suspendedDecision := rfl

/-- What the entry to SUSPENDED is, whichever way fill service goes. -/
theorem enterSuspended_frame (s : State) : s.enterSuspended.fsq.state = .suspended ∧
    s.enterSuspended.jq.jobs = s.jq.jobs.modifyHead (fun x => { x with phase := some .suspended }) ∧
    s.enterSuspended.counters = s.counters ∧ s.enterSuspended.cache = s.cache := by
  have only := suspendedDecision_flashSide s.nowSuspended
  rw [enterSuspended_eq]
  exact ⟨suspendedDecision_state _, congrArg JobQueue.jobs (suspendedDecision_jq s.nowSuspended), only.counters, only.cache⟩

/-- With no entry WAITING, or a profile pending, no fill is served and the erase is resumed (R127, R128). -/
theorem enterSuspended_resumes {s : State} (h : s.oldestWaiting = none ∨ s.fsq.pendingProfile.isSome = true) :
    s.enterSuspended = s.nowSuspended.beginResume := by
  rw [enterSuspended_eq]
  cases profile : s.fsq.pendingProfile with
  | none => exact suspendedDecision_none_waits (s := s.nowSuspended) profile (h.resolve_right (by simp [profile]))
  | some p => exact suspendedDecision_resumes (s := s.nowSuspended) (.inr (Option.isSome_of_eq_some profile))

/-- Else the oldest WAITING entry is the first one served (R127). -/
theorem enterSuspended_serves {s : State} {f : Fill} (budget : 0 < s.fsq.active.fillBudget)
    (oldest : s.oldestWaiting = some f) (profile : s.fsq.pendingProfile = none) : s.enterSuspended =
      { s.nowSuspended with
        fills := transferring f.line s.fills
        fsq := { s.nowSuspended.fsq.reads f.line with fillsServed := 1 } } :=
  suspendedDecision_serves (s := s.nowSuspended) budget profile oldest

/-! ### The wait between two suspended-status reads -/

/-- The busy time stands while the job is SUSPENDING (R124). -/
theorem busyGrowth_of_suspending {s : State} (h : s.phase = some .suspending) (n : Nat) : s.busyGrowth n = 0 := by
  simp [State.busyGrowth, State.busyGrows, h]

theorem advance_jobs_of_suspending {s : State} (h : s.phase = some .suspending) (n : Nat) :
    (s.advance n).jq.jobs = s.jq.jobs := by
  show s.jq.jobs.modifyHead (fun x => { x with busyTime := x.busyTime + s.busyGrowth n }) = s.jq.jobs
  rw [busyGrowth_of_suspending h]
  cases s.jq.jobs <;> rfl

theorem exec_suspendPollIntervalExpiry {s : State} (wait : s.fsq.wait = .suspendPoll)
    (pass : s.canPass (20 - s.fsq.waitTime) = true) :
    exec .suspendPollIntervalExpiry s = .next (s.advance (20 - s.fsq.waitTime)).beginSuspendedRead :=
  (if_pos wait).trans (atExpiry_of_canPass pass)

theorem exec_suspendTimeout {s : State} (wait : s.fsq.wait = .suspendPoll)
    (pass : s.canPass (s.fsq.active.suspendTimeout - s.fsq.suspendTime) = true) : exec .suspendTimeout s =
      .next (s.advance (s.fsq.active.suspendTimeout - s.fsq.suspendTime)).timeOutJob :=
  (if_pos wait).trans (atExpiry_of_canPass pass)

/-! ### The resume -/

theorem resumed_readSide (s : State) : ReadSideSame s s.resumed := by simp [State.resumed, ReadSideSame]

theorem exec_resumeEnd {s : State} {j : Job} (sends : s.jobSends .resume j = true) :
    exec .resumeEnd s = .next s.endPort.resumed.beginStatusRead := by
  obtain ⟨port, running, due⟩ := jobSends_iff.mp sends
  have not_due : s.endPort.resumed.fsq.resetDue = false := due
  show execResumeEnd s = _
  rw [execResumeEnd, if_pos port, running]
  dsimp only
  rw [not_due]
  rfl

/-- Settles O51: each event from the suspend command's end to the resume's end, by the cases of R125, R127 and R128. -/
theorem suspensionRunsToItsResume : Obligations.SuspensionRunsToItsResume := by
  intro j s erase
  refine ⟨fun sends => ?_, fun b sends reads budget => ?_, fun b sends clear => ⟨fun own idle error => ?_, fun other => ?_⟩,
    fun wait => ⟨fun pass => ?_, fun running phase pass => ?_⟩, fun sends => ?_⟩
  · exact jobTransactionEnd_of_sends sends fun _ t =>
      (t.updFsq (fun q => { q with suspendTime := 0 })).beginSuspendedRead
  · obtain ⟨state, jobs, counters, cache⟩ := enterSuspended_frame s.endPort
    refine ⟨_, exec_suspendedStatusReadEnd sends b, ?_⟩
    rw [suspendedStatus_suspended (s := s.endPort) reads]
    refine ⟨state, jobs, counters, cache, fun resumes => ?_, fun f oldest profile => ?_⟩
    · rw [enterSuspended_resumes (s := s.endPort) resumes]
      exact ⟨nowSuspended_resume_fills s.endPort, rfl, rfl⟩
    · rw [enterSuspended_serves (s := s.endPort) budget oldest profile]
      exact ⟨rfl, rfl, rfl⟩
  · obtain ⟨js, jobs⟩ := jobs_of_running (jobSends_iff.mp sends).2.1
    have headed : ((s.endPort.setPhase .busy).setFlash .job).jq.jobs = { j with phase := some .busy } :: js := by
      show s.jq.jobs.modifyHead _ = _
      rw [jobs]
      rfl
    refine ⟨_, exec_suspendedStatusReadEnd sends b, ?_⟩
    rw [suspendedStatus_ended (s := s.endPort) clear own idle, 
      busyEnded_erase (s := (s.endPort.setPhase .busy).setFlash .job) erase error]
    have alike : AlikeAtEnd s ((s.endPort.setPhase .busy).setFlash .job) :=
      (endPort_alike s).trans ((updHead_alike s.endPort _).trans (updFsq_alike ..))
    exact ⟨(finishJob_jobGone headed (by simp)).of_alike alike, (finishJob_goesOn headed rfl .ok).of_head,
      finishJob_suspension headed (by simp)⟩
  · refine ⟨fun early => ?_, fun late => ?_⟩
    · rw [exec_suspendedStatusReadEnd sends, suspendedStatus_polls (s := s.endPort) clear other early]
      rfl
    · obtain ⟨js, jobs⟩ := jobs_of_running (jobSends_iff.mp sends).2.1
      refine ⟨_, exec_suspendedStatusReadEnd sends b, ?_⟩
      rw [suspendedStatus_timesOut (s := s.endPort) clear other late]
      exact ⟨(timeOutJob_jobGone (s := s.endPort) jobs).of_alike (endPort_alike s), timeOutJob_recovery jobs⟩
  · exact exec_suspendPollIntervalExpiry wait pass
  · obtain ⟨js, jobs⟩ := jobs_of_running running
    have headed := (advance_jobs_of_suspending phase (s.fsq.active.suspendTimeout - s.fsq.suspendTime)).trans jobs
    have gone : JobGone { j with phase := j.phase } .flashTimeout _ _ := timeOutJob_jobGone headed
    exact ⟨_, exec_suspendTimeout wait pass, gone.of_alike (advance_alike s _),
      timeOutJob_recovery headed, timeOutJob_suspension headed⟩
  · exact ⟨_, exec_resumeEnd sends, rfl, rfl, rfl, resumed_readSide s.endPort⟩

end Sys2Proof.Machine
end

section
/-! PROOFS. A good end of recovery: the answers, FLASH_STATE and the arbitration, also before a RESET_FLASH of the same instant
(R139, R143, log 30). -/

namespace Sys2Proof.Machine

/-! ### FLASH_STATE and the RESET_FLASH that waits next -/

/-- A fetch whose message a notice replaces is still a fetch, and no frame is received in it (R156). -/
theorem noteReplaced_resetNext (s : State) : ({ s with spi := s.spi.noteReplaced } : State).resetNext = s.resetNext := by
  obtain ⟨selector, writing⟩ : s.spi.noteReplaced.transaction.beforeSelector = s.spi.transaction.beforeSelector ∧
      (s.spi.noteReplaced.transaction = .writing ↔ s.spi.transaction = .writing) := by
    unfold SpiPort.noteReplaced
    split
    · next fetching => simp [fetching, SpiTransaction.beforeSelector]
    · exact ⟨rfl, Iff.rfl⟩
  have takes : ∀ l frame, ({ s with spi := s.spi.noteReplaced } : State).takes l frame = s.takes l frame := fun l frame => by
    cases l
    · simp only [State.takes, State.receivingA, selector, writing]
      rfl
    · rfl
  have accepts : ∀ l tag, ({ s with spi := s.spi.noteReplaced } : State).acceptsReset l tag = s.acceptsReset l tag :=
    fun l tag => congrArg (· && (s.link l).isOpen) (takes l _)
  simp only [State.resetNext, accepts]
  rfl

theorem giveNotice_resetNext (s : State) (l : Link) (m : Message) : (s.giveNotice l m).resetNext = s.resetNext := by
  cases l
  · refine .trans ?_ (noteReplaced_resetNext s)
    exact resetNext_of_alike (s := { s with spi := s.spi.noteReplaced }) rfl rfl rfl
      (fun l => by cases l <;> exact ⟨rfl, rfl, rfl, fun _ => rfl⟩) rfl
  · exact resetNext_of_alike rfl rfl rfl (fun l => by cases l <;> exact ⟨rfl, rfl, rfl, fun _ => rfl⟩) rfl

theorem giveFlashState_resetNext (s : State) : s.giveFlashState.resetNext = s.resetNext := by
  unfold State.giveFlashState
  dsimp only
  split <;> split <;> simp only [giveNotice_resetNext]

/-- An answer takes the slot that was reserved for it, so it makes no link unready. -/
theorem answerResets_resetNext (s : State) (st : Status) : (s.answerResets st).resetNext = s.resetNext := by
  have one : ∀ (u : State) (q : ResetRequest), (answerReset st u q).resetNext = u.resetNext := fun u q => by
    unfold answerReset
    split
    · rfl
    · exact place_resetNext ..
  have each : ∀ (qs : List ResetRequest) (u : State), (qs.foldl (answerReset st) u).resetNext = u.resetNext := fun qs => by
    induction qs with
    | nil => exact fun _ => rfl
    | cons q qs ih => exact fun u => (ih _).trans (one u q)
  exact each s.fsq.resetRequests s

/-! ### READY: steps 1 to 3 of R139 -/

/-- Recovery has ended in READY, the RESET_FLASH requests are answered and FLASH_STATE is given. -/
def State.recoveryAnswered (s : State) : State :=
  if s.fsq.origin = .faulted then ((s.setFlash .ready).answerResets .ok).giveFlashState
  else (s.setFlash .ready).answerResets .ok

section Answered

variable (s : State)

theorem answered_places : OnlyPlaces ((s.setFlash .ready).updFsq (fun q => { q with resetRequests := [] }))
    ((s.setFlash .ready).answerResets .ok) := answerResets_places ..

/-- Step 4: a profile is applied, and then FSQ arbitrates, unless a RESET_FLASH is of the same instant (log 30). -/
theorem recoveryReady_eq : s.recoveryReady =
    if s.recoveryAnswered.resetNext.isSome = true then s.recoveryAnswered.applyProfile
    else s.recoveryAnswered.applyProfile.choose := by
  have origin : ((s.setFlash .ready).answerResets .ok).fsq.origin = s.fsq.origin := by
    rw [(answered_places s).fsq]
    rfl
  unfold State.recoveryReady State.recoveryAnswered
  simp only [origin]
  rfl

theorem recoveryAnswered_resetNext : s.recoveryAnswered.resetNext = (s.setFlash .ready).resetNext := by
  unfold State.recoveryAnswered
  split
  · rw [giveFlashState_resetNext, answerResets_resetNext]
  · exact answerResets_resetNext ..

/-- What stands unchanged beside the links. -/
theorem recoveryAnswered_frame :
    s.recoveryAnswered.records = s.records ∧ s.recoveryAnswered.cache = s.cache ∧ s.recoveryAnswered.fills = s.fills ∧
    s.recoveryAnswered.jq = s.jq ∧ s.recoveryAnswered.staging = s.staging ∧
    s.recoveryAnswered.fsq = { s.fsq with state := .ready, resetRequests := [] } ∧
    s.recoveryAnswered.protection = s.protection ∧ s.recoveryAnswered.counters = s.counters := by
  obtain ⟨records, cache, fills, jq, staging, fsq, protection, counters, -⟩ := answered_places s
  unfold State.recoveryAnswered
  split
  · obtain ⟨records', cache', fills', jq', staging', fsq', protection', counters'⟩ :=
      giveFlashState_frame ((s.setFlash .ready).answerResets .ok)
    exact ⟨records'.trans records, cache'.trans cache, fills'.trans fills, jq'.trans jq, staging'.trans staging,
      fsq'.trans fsq, protection'.trans protection, counters'.trans counters⟩
  · exact ⟨records, cache, fills, jq, staging, fsq, protection, counters⟩

/-- FLASH_STATE goes to the OPEN links where the origin was FAULTED (R144). -/
theorem recoveryAnswered_holder (l : Link) : (s.recoveryAnswered.link l).holder =
    if s.fsq.origin = .faulted ∧ (s.link l).isOpen = true then some (flashStateNotice s.recoveryAnswered.fsq)
    else (s.link l).holder := by
  obtain ⟨isOpen, -, holder⟩ := (answered_places s).links l
  have fsq := (giveFlashState_frame ((s.setFlash .ready).answerResets .ok)).2.2.2.2.2.1
  unfold State.recoveryAnswered
  by_cases faulted : s.fsq.origin = .faulted
  · simp only [faulted, if_true, true_and, giveFlashState_link, fsq, isOpen]
    split
    · next opened => exact (if_pos opened).symm
    · next closed => exact holder.trans (if_neg closed).symm
  · simp only [faulted, if_false, false_and]
    exact holder

/-- Only the answers join the FIFOs. -/
theorem recoveryAnswered_fifo (l : Link) :
    (s.recoveryAnswered.link l).fifo = (((s.setFlash .ready).answerResets .ok).link l).fifo := by
  unfold State.recoveryAnswered
  split
  · rw [giveFlashState_link]
    split <;> rfl
  · rfl

end Answered

/-- With no request nothing is answered. -/
theorem recoveryAnswered_fifo_of_none {s : State} (requests : s.fsq.resetRequests = []) (l : Link) :
    (s.recoveryAnswered.link l).fifo = (s.link l).fifo := by
  have answered : (s.setFlash .ready).answerResets .ok = (s.setFlash .ready).updFsq (fun q => { q with resetRequests := [] }) := by
    simp only [State.answerResets, State.setFlash, updFsq_fsq, requests, List.foldl_nil]
  rw [recoveryAnswered_fifo, answered]
  rfl

/-- One request is answered in the slot reserved for it. -/
theorem recoveryAnswered_fifo_of_one {s : State} {q : ResetRequest} (requests : s.fsq.resetRequests = [q])
    (unmuted : q.muted = false) (reserved : q.session ∈ (s.link q.link).reserved) (isOpen : (s.link q.link).isOpen = true) :
    (s.recoveryAnswered.link q.link).fifo = (s.link q.link).fifo ++ [replyMessage .resetFlash q.tag .ok []] := by
  have answered : (s.setFlash .ready).answerResets .ok =
      ((s.setFlash .ready).place q.link q.session (replyMessage .resetFlash q.tag .ok [])).updFsq
        (fun q => { q with resetRequests := [] }) := by
    simp only [State.answerResets, State.setFlash, updFsq_fsq, requests, List.foldl_cons, List.foldl_nil, answerReset, unmuted,
      Bool.false_eq_true, if_false]
  rw [recoveryAnswered_fifo, answered]
  show (((s.setFlash .ready).place q.link q.session _).link q.link).fifo = _
  rw [place_link, place_fifo]
  exact if_pos ⟨reserved, isOpen⟩

/-! ### READY: the arbitration, step 4 of R139 -/

/-- What a good end of recovery leaves, whatever FSQ then begins. -/
structure RecoveryKeeps (s t : State) : Prop where
  flashId : t.fsq.flashId = s.fsq.flashId
  requests : t.fsq.resetRequests = s.fsq.resetRequests
  cache : t.cache = s.cache
  records : t.records = s.records
  staging : t.staging = s.staging
  protection : t.protection = s.protection
  history : t.jq.history = s.jq.history

namespace RecoveryKeeps

theorem applyProfile (s : State) : RecoveryKeeps s s.applyProfile := by
  obtain ⟨-, -, history, staging, protection, -, -⟩ := KeepsJobs.applyProfile s
  refine ⟨?_, ?_, (State.GoesOn.applyProfile_same s).1, applyProfile_records s, staging, protection, history⟩ <;>
    cases profile : s.fsq.pendingProfile with
    | none => rw [applyProfile_eq_self profile]
    | some p => rw [applyProfile_fsq profile]

theorem serveOldest (s : State) : RecoveryKeeps s s.serveOldest := by
  unfold State.serveOldest
  split <;> exact ⟨rfl, rfl, rfl, rfl, rfl, rfl, rfl⟩

theorem choose (s : State) : RecoveryKeeps s s.choose := by
  unfold State.choose
  split
  · split
    · exact ⟨rfl, rfl, rfl, rfl, rfl, rfl, rfl⟩
    · exact serveOldest s
  · exact serveOldest s

/-- Whether FSQ arbitrates, or only applies a profile before a RESET_FLASH (log 30). -/
theorem recoveryReady (s : State) : RecoveryKeeps s.recoveryAnswered s.recoveryReady := by
  have applied := applyProfile s.recoveryAnswered
  have chosen := choose s.recoveryAnswered.applyProfile
  rw [recoveryReady_eq]
  split
  · exact applied
  · exact ⟨chosen.flashId.trans applied.flashId, chosen.requests.trans applied.requests, chosen.cache.trans applied.cache,
      chosen.records.trans applied.records, chosen.staging.trans applied.staging,
      chosen.protection.trans applied.protection, chosen.history.trans applied.history⟩

end RecoveryKeeps

section Arbitrates

variable {s : State} (profile : s.fsq.pendingProfile = none)
include profile

/-- With no profile pending FSQ arbitrates, or begins nothing before a RESET_FLASH of the same instant (R143, log 30). -/
theorem recoveryReady_of_no_profile : s.recoveryReady =
    if (s.setFlash .ready).resetNext = none then s.recoveryAnswered.choose else s.recoveryAnswered := by
  have idle : s.recoveryAnswered.fsq.pendingProfile = none := by
    rw [(recoveryAnswered_frame s).2.2.2.2.2.1]
    exact profile
  rw [recoveryReady_eq, applyProfile_eq_self idle, recoveryAnswered_resetNext]
  cases (s.setFlash .ready).resetNext <;> rfl

/-- With neither a job nor an entry FSQ has nothing to begin. -/
theorem recoveryReady_idle (jobs : s.jq.jobs = []) (fills : s.fills = []) : s.recoveryReady = s.recoveryAnswered := by
  obtain ⟨-, -, fills', jq, -⟩ := recoveryAnswered_frame s
  have no_job : s.recoveryAnswered.head = none := by
    rw [State.head, jq, jobs]
    rfl
  have none_waits : s.recoveryAnswered.oldestWaiting = none := by
    rw [State.oldestWaiting, fills', fills]
    rfl
  rw [recoveryReady_of_no_profile profile, choose_of_no_job no_job, serveOldest_of_none none_waits, ite_self]

end Arbitrates

/-- A good end of recovery, told for a free port (R139). -/
theorem recoveryReady_again {s : State} (port : s.fsq.port = none) : ReadyAgain s.fsq.flashId s s.recoveryReady := by
  obtain ⟨records, cache, fills, jq, staging, fsq, protection, counters⟩ := recoveryAnswered_frame s
  have oldest : s.recoveryAnswered.oldestWaiting = s.oldestWaiting := by
    rw [State.oldestWaiting, fills]
    rfl
  have kept := RecoveryKeeps.recoveryReady s
  have ready : s.recoveryAnswered.fsq = { s.fsq with
      port := none, state := .ready, flashId := s.fsq.flashId, resetRequests := [] } := by rw [fsq, ← port]
  refine ⟨?_, ?_, kept.cache.trans cache, kept.records.trans records, kept.staging.trans staging,
    kept.protection.trans protection, ?_, fun profile => ?_, fun jobs no_fill profile => ?_⟩
  · rw [kept.flashId, fsq]
  · rw [kept.requests, fsq]
  · rw [kept.history, jq]
  · rw [recoveryReady_of_no_profile profile]
    split
    · refine ⟨fun k rest jobs queued none_waits => ?_, fun f waits no_job => ?_⟩
      · have head : s.recoveryAnswered.head = some k := by
          rw [State.head, jq, jobs]
          rfl
        have started := startJob_jobStarted head
        rw [fsq] at started
        rw [choose_of_none_waits head queued (oldest.trans none_waits)]
        exact started
      · have head : s.recoveryAnswered.head = none := by
          rw [State.head, jq, no_job]
          rfl
        rw [choose_of_no_job head, serveOldest_of_some (oldest.trans waits), serveFill_eq, fills, fsq, State.headQueued, head]
        exact ⟨rfl, rfl⟩
    · exact ⟨jq, fills, ready⟩
  · rw [recoveryReady_idle profile jobs no_fill]
    exact ⟨ready, jq, fills.trans no_fill, counters, recoveryAnswered_fifo_of_none,
      fun q requests unmuted reserved isOpen => recoveryAnswered_fifo_of_one requests unmuted reserved isOpen,
      recoveryAnswered_holder s⟩

/-- What is said of a good end does not depend on the transaction that ends, nor on the flash ID before it. -/
theorem ReadyAgain.of_port {s t : State} {id : FlashId}
    (h : ReadyAgain id (s.endPort.updFsq (fun q => { q with flashId := id })) t) : ReadyAgain id s t := h

end Sys2Proof.Machine
end

section
/-! PROOFS. Recovery: the attempt step by step, its good ends, and its 20 ms in a wait (R135 to R139). -/

namespace Sys2Proof.Machine

/-! ### The status read and the ID read -/

section StatusRead

variable {s : State} {b : Byte}

theorem recoveryStatus_probes (idle : b &&& s.fsq.active.busyMask = 0) (probe : s.fsq.probe = true) :
    s.recoveryStatus b = s.begin (readBytes .recoveryIdRead 0x9F 3) :=
  (if_pos (readsSet_eq_false_iff.mpr idle)).trans (if_pos probe)

theorem recoveryStatus_ready (idle : b &&& s.fsq.active.busyMask = 0) (probe : s.fsq.probe = false) :
    s.recoveryStatus b = s.recoveryReady :=
  (if_pos (readsSet_eq_false_iff.mpr idle)).trans (if_neg (by simp [probe]))

/-- A device that is busy in attempt 1 is given a second one (R135). -/
theorem recoveryStatus_again (busy : b &&& s.fsq.active.busyMask ≠ 0) (first : s.fsq.attempt = 1) :
    s.recoveryStatus b = (s.updFsq (fun q => { q with attempt := 2 })).beginReset :=
  (if_neg (by simp [readsSet_iff.mpr busy])).trans (if_pos first)

end StatusRead

theorem idAbsent_eq_false {id : FlashId} (zeros : id ≠ ⟨0, 0, 0⟩) (ones : id ≠ ⟨0xFF, 0xFF, 0xFF⟩) : idAbsent id = false := by
  obtain ⟨b0, b1, b2⟩ := id
  simpa [idAbsent, and_assoc] using And.intro zeros ones

theorem recoveryId_ready {s : State} {id : FlashId} (zeros : id ≠ ⟨0, 0, 0⟩) (ones : id ≠ ⟨0xFF, 0xFF, 0xFF⟩) :
    s.recoveryId id = (s.updFsq (fun q => { q with flashId := id })).recoveryReady :=
  if_neg (by simp [idAbsent_eq_false zeros ones])

/-! ### The reset commands, the wait and the 20 ms -/

section ResetCommands

variable {s : State}

theorem exec_recoveryReset1 (h : s.portIs .recoveryReset1 = true) : exec .recoveryResetCommandEnd s =
    .next (s.recoveryStep (fun t => t.begin (oneByte .recoveryReset2 t.fsq.active.secondReset))) := if_pos h

theorem exec_recoveryReset2 (h : s.portIs .recoveryReset2 = true) :
    exec .recoveryResetCommandEnd s = .next (s.recoveryStep (fun t => t.beginWait .recovery)) :=
  (if_neg fun first => by cases portIs_unique h first).trans (if_pos h)

theorem exec_recoveryWaitEnd (wait : s.fsq.wait = .recovery)
    (pass : s.canPass (s.fsq.active.recoveryWait * 1000 - s.fsq.waitTime) = true) : exec .recoveryWaitEnd s =
      .next (s.advance (s.fsq.active.recoveryWait * 1000 - s.fsq.waitTime)).beginRecoveryRead :=
  (if_pos wait).trans (atExpiry_of_canPass pass)

end ResetCommands

/-- What the entry to FAULTED leaves of FSQ (R140). -/
theorem recoveryFaulted_fsq (s : State) (c : FaultCause) :
    (s.recoveryFaulted c).fsq.state = .faulted ∧ (s.recoveryFaulted c).fsq.cause = c ∧
    (s.recoveryFaulted c).fsq.flashId = s.fsq.flashId ∧ (s.recoveryFaulted c).fsq.active = s.fsq.active := by
  obtain ⟨-, -, -, -, -, -, -, answered, -⟩ := faultAnswers_frame (s.jobsFailed c)
  rw [recoveryFaulted_eq, answered, (jobsFailed_frame s c).1]
  exact ⟨rfl, rfl, rfl, rfl⟩

/-- Settles O52: each end of a recovery transaction before the 20 ms is its act on the state with the port free (R135 to R137);
the good ends are the steps of R139. -/
theorem recoveryRunsItsAttempts : Obligations.RecoveryRunsItsAttempts := by
  intro s due early
  refine ⟨fun port => ?_, fun port => ?_, fun wait pass => ?_,
    fun b port => ⟨fun idle probe => ?_, fun idle probe => ?_, fun busy first => ?_⟩, fun id port zeros ones => ?_,
    fun recovering wait pass => ?_⟩
  · rw [exec_recoveryReset1 port, recoveryStep_act due early]
    rfl
  · rw [exec_recoveryReset2 port, recoveryStep_act due early]
    rfl
  · rw [exec_recoveryWaitEnd wait pass]
    rfl
  · rw [exec_recoveryStatus port, recoveryStep_act due early, recoveryStatus_probes (s := s.endPort) idle probe]
    rfl
  · refine ⟨_, exec_recoveryStatus port b, ?_⟩
    rw [recoveryStep_act due early, recoveryStatus_ready (s := s.endPort) idle probe]
    exact .of_port (recoveryReady_again (s := s.endPort) rfl)
  · rw [exec_recoveryStatus port, recoveryStep_act due early, recoveryStatus_again (s := s.endPort) busy first]
    rfl
  · refine ⟨_, exec_recoveryId port id, ?_⟩
    rw [recoveryStep_act due early, recoveryId_ready zeros ones]
    exact .of_port (recoveryReady_again (s := s.endPort.updFsq (fun q => { q with flashId := id })) rfl)
  · obtain ⟨state, cause, flashId, active⟩ := recoveryFaulted_fsq (s.advance (20000 - s.fsq.recoveryTime)) .recoveryTimeout
    exact ⟨_, exec_recoveryTimeout_wait recovering wait pass, state, cause, flashId, active⟩

end Sys2Proof.Machine
end

section
/-! PROOFS. PROTECT and UNPROTECT: the slot that a PROTECT takes, its checks, and a reply with one slot changed (R146 to R148). -/

namespace Sys2Proof.Machine

/-! ### The slots of the Protection Table -/

/-- The state with one slot of the Protection Table set. -/
def State.withSlot (s : State) (i : Fin 8) (e : Option ProtectEntry) : State :=
  { s with protection := s.protection.set i e }

theorem withSlot_self (s : State) (i : Fin 8) (e : Option ProtectEntry) : (s.withSlot i e).protection[i] = e :=
  Vector.getElem_set_self i.isLt

theorem withSlot_other (s : State) {i n : Fin 8} (e : Option ProtectEntry) (h : n ≠ i) :
    (s.withSlot i e).protection[n] = s.protection[n] :=
  Vector.getElem_set_ne i.isLt n.isLt fun same => h (Fin.ext same.symm)

theorem withSlot_linksSame (s : State) (i : Fin 8) (e : Option ProtectEntry) : LinksSame s (s.withSlot i e) :=
  ⟨rfl, rfl, rfl, rfl, rfl, rfl⟩

theorem slotNumbers_eq : ([0, 1, 2, 3, 4, 5, 6, 7] : List (Fin 8)) = List.finRange 8 := by decide

theorem lowestEmptySlot_isNone {s : State} : s.lowestEmptySlot.isNone = true ↔ ∀ i : Fin 8, s.protection[i] ≠ none := by
  rw [Option.isNone_iff_eq_none, State.lowestEmptySlot, slotNumbers_eq, List.find?_eq_none]
  simp [Option.isNone_iff_eq_none]

/-- The slot found is empty, and each slot before it holds an entry (R147). -/
theorem lowestEmptySlot_is_lowest {s : State} {i : Fin 8} (h : s.lowestEmptySlot = some i) :
    s.protection[i] = none ∧ ∀ n : Fin 8, n < i → s.protection[n] ≠ none := by
  rw [State.lowestEmptySlot, slotNumbers_eq, List.find?_eq_some_iff_getElem] at h
  obtain ⟨empty, k, hk, at_k, before⟩ := h
  have index : k = i.val := by simpa [Fin.ext_iff] using at_k
  refine ⟨Option.isNone_iff_eq_none.mp empty, fun n below free => ?_⟩
  simpa [free] using before n.val (index ▸ below)

@[simp] theorem afterTake_lowestEmptySlot (s : State) (l : Link) :
    (s.afterTake l).lowestEmptySlot = s.lowestEmptySlot := by
  rw [State.lowestEmptySlot, State.lowestEmptySlot, afterTake_protection]

/-- A request on an OPEN link that is answered with one slot set: nothing else behind the links has changed. -/
theorem answered_withSlot {s : State} {l : Link} (m : Message) (ho : (s.link l).isOpen = true) (i : Fin 8)
    (e : Option ProtectEntry) {t : State} (ht : t = ((s.afterTake l).withSlot i e).place l (s.link l).session m) :
    Answered l m s t ∧ t.protection[i] = e ∧ (∀ n : Fin 8, n ≠ i → t.protection[n] = s.protection[n]) ∧
      ReadSideSame s t ∧ t.jq = s.jq ∧ t.staging = s.staging ∧ t.fsq = s.fsq ∧ t.counters = s.counters := by
  have table : t.protection = ((s.afterTake l).withSlot i e).protection := by rw [ht, place_protection]
  refine ⟨ht ▸ answered_of_linksSame m ho (withSlot_linksSame _ i e), ?_, fun n other => ?_, ?_⟩
  · rw [table, withSlot_self]
  · rw [table, withSlot_other _ e other, afterTake_protection]
  · subst ht
    refine ⟨⟨?_, ?_, ?_⟩, ?_, ?_, ?_, ?_⟩ <;> simp [State.withSlot]

/-! ### The checks of a PROTECT -/

theorem modeOf_isNone {b : Byte} : (modeOf b).isNone = true ↔ b ≠ 1 ∧ b ≠ 2 := by
  unfold modeOf
  split_ifs with erase modify
  · simp [erase]
  · simp [modify]
  · simp only [Option.isNone_none, true_iff]
    exact ⟨erase, modify⟩

theorem modeOf_getD {b : Byte} (h : (modeOf b).isNone = false) :
    (modeOf b).getD .noErase = if b = 1 then .noErase else .noModify := by
  unfold modeOf at h ⊢
  split_ifs at h ⊢
  · rfl
  · rfl
  · cases h

/-- A byte above 1 is no flag (R172). -/
theorem flagOf_isNone {b : Byte} : (flagOf b).isNone = true ↔ 1 < b.toNat := by
  unfold flagOf
  split_ifs with zero one
  · simp [zero]
  · simp [one]
  · simp only [Option.isNone_none, true_iff]
    bv_omega

theorem misaligned_iff {a n : Nat} :
    (decide (a % 4096 ≠ 0) || decide (n % 4096 ≠ 0)) = true ↔ a % 4096 ≠ 0 ∨ n % 4096 ≠ 0 := by
  simp

theorem protectChecks_afterTake (p : List Byte) (s : State) (l : Link) :
    protectChecks p (s.afterTake l) = protectChecks p s := by
  rw [protectChecks, protectChecks, afterTake_capacity, afterTake_lowestEmptySlot]

/-- What the checks of R146 leave: a mode, and an empty slot. -/
theorem mode_and_slot_of_protectChecks {p : List Byte} {s : State} (checks : firstFailure (protectChecks p s) = none) :
    (modeOf (byteAt p 8)).isNone = false ∧ ∃ i, s.lowestEmptySlot = some i := by
  have passed := firstFailure_eq_none.mp checks
  simp only [protectChecks, List.forall_mem_cons, Bool.or_eq_false_iff] at passed
  obtain ⟨⟨mode, -⟩, -, -, -, slot, -⟩ := passed
  exact ⟨mode, Option.isSome_iff_exists.mp (Option.isNone_eq_false_iff.mp slot)⟩

theorem protectEntryOf_eq {p : List Byte} (h : (modeOf (byteAt p 8)).isNone = false) : protectEntryOf p =
    ⟨field p 0 4, field p 4 4, if byteAt p 8 = 1 then .noErase else .noModify, byteAt p 9 = 1⟩ := by
  rw [protectEntryOf, modeOf_getD h]

/-! ### PROTECT -/

theorem protectBody_refuses {q : Request} {s : State} {st : Status}
    (h : firstFailure (protectChecks q.payload s) = some st) : protectBody q s = q.refuse .protect st s := by
  rw [protectBody, h]

theorem protectBody_accepts {q : Request} {s : State} {i : Fin 8}
    (h : firstFailure (protectChecks q.payload s) = none) (slot : s.lowestEmptySlot = some i) :
    protectBody q s = (s.withSlot i (some (protectEntryOf q.payload))).place q.link q.session
      (replyMessage .protect q.tag .ok [BitVec.ofNat 8 i.val]) := by
  simp only [protectBody, h, slot]
  rfl

/-- Settles O39: the checks of R146, each refusing with its status; with none the entry is in the slot found. -/
theorem protectTakesTheLowestEmptySlot : Obligations.ProtectTakesTheLowestEmptySlot := by
  intro l tag p s ht ho hp
  refine ⟨_, exec_request ht ho (by simp [wrongSize, fixedSize, hp]), ?_⟩
  have refuses : ∀ st, firstFailure (protectChecks p s) = some st →
      protectBody { link := l, session := (s.link l).session, tag := tag, payload := p } (s.afterTake l) =
        ({ link := l, session := (s.link l).session, tag := tag, payload := p } : Request).refuse .protect st
          (s.afterTake l) := fun st fails =>
    protectBody_refuses (by rw [protectChecks_afterTake, fails])
  dsimp only [bodyOf]
  refine check_decides ho refuses _ rfl (by rw [Bool.or_eq_true, modeOf_isNone, flagOf_isNone]) fun left => ?_
  refine check_decides ho refuses _ left decide_eq_true_iff fun left => ?_
  refine check_decides ho refuses _ left misaligned_iff fun left => ?_
  refine check_decides ho refuses _ left decide_eq_true_iff fun left => ?_
  refine check_decides ho refuses _ left lowestEmptySlot_isNone fun left => ?_
  have passed := left.trans firstFailure_nil
  obtain ⟨mode, i, slot⟩ := mode_and_slot_of_protectChecks passed
  obtain ⟨empty, lowest⟩ := lowestEmptySlot_is_lowest slot
  refine ⟨i, empty, lowest, ?_⟩
  rw [← protectEntryOf_eq mode]
  exact answered_withSlot _ ho i _ (protectBody_accepts (by rw [protectChecks_afterTake, passed])
    (by rw [afterTake_lowestEmptySlot, slot]))

/-! ### UNPROTECT -/

theorem unprotectBody_no_slot {q : Request} {s : State} (h : 7 < field q.payload 0 1) :
    unprotectBody q s = q.refuse .unprotect .badField s := by
  rw [unprotectBody, dif_neg (by omega)]

section NamedSlot

variable {q : Request} {s : State} {i : Fin 8} (index : field q.payload 0 1 = i)
include index

theorem unprotectBody_empty (slot : s.protection[i.val] = none) : unprotectBody q s = q.refuse .unprotect .badField s := by
  simp [unprotectBody, index, slot]

theorem unprotectBody_locked {e : ProtectEntry} (slot : s.protection[i.val] = some e) (locked : e.locked = true) :
    unprotectBody q s = q.refuse .unprotect .locked s := by
  simp [unprotectBody, index, slot, locked]

theorem unprotectBody_removes {e : ProtectEntry} (slot : s.protection[i.val] = some e) (unlocked : ¬ e.locked = true) :
    unprotectBody q s =
      (s.withSlot i none).place q.link q.session (replyMessage .unprotect q.tag .ok q.payload) := by
  simp [unprotectBody, index, slot, unlocked, Request.accept, State.withSlot]

end NamedSlot

/-- Settles O40: the index names no slot, or an empty one, or a locked entry, or an entry that goes (R148). -/
theorem unprotectRemovesUnlockedEntries : Obligations.UnprotectRemovesUnlockedEntries := by
  intro l tag x s ht ho
  have named : field [x] 0 1 = x.toNat := field_one [x] 0
  refine ⟨_, exec_request ht ho rfl, fun above => ?_, fun i hi => ?_⟩
  · dsimp only [bodyOf]
    rw [unprotectBody_no_slot (by rwa [named])]
    exact refused_at_once _ _ _ _ ho
  · have index : field [x] 0 1 = i := named.trans hi.symm
    have standing : (s.afterTake l).protection[i] = s.protection[i] := by rw [afterTake_protection]
    dsimp only [bodyOf]
    cases slot : s.protection[i] with
    | none =>
      rw [unprotectBody_empty index (standing.trans slot)]
      exact refused_at_once _ _ _ _ ho
    | some e =>
      dsimp only
      split_ifs with locked
      · rw [unprotectBody_locked index (standing.trans slot) locked]
        exact refused_at_once _ _ _ _ ho
      · exact answered_withSlot _ ho i none (unprotectBody_removes index (standing.trans slot) locked)

end Sys2Proof.Machine
end

section
/-! PROOFS. R160: what a change of one link owes to its reply slots and to the sessions they are reserved under, and that the
operations of the read path, of the jobs and of FSQ keep it. -/

namespace Sys2Proof.Machine

/-! ### One link -/

/-- The slots of a link fit (R160), and a frame in reception has a FREE one (R153). -/
def LinkState.hasRoom (k : LinkState) : Prop := k.slotsFit ∧ (k.receiver = .receiving → 1 ≤ k.freeSlots)

/-- What R160 speaks of, of one link. -/
def LinkState.slotSide (k : LinkState) : Bool × Byte × Receiver × List Byte × List Message :=
  (k.isOpen, k.session, k.receiver, k.reserved, k.fifo)

/-- A placement in a slot that is reserved. -/
theorem place_of_mem {k : LinkState} {x : Byte} (held : x ∈ k.reserved) (m : Message) : k.place x m =
    { k with reserved := k.reserved.erase x, fifo := if k.isOpen then k.fifo ++ [m] else k.fifo } := if_pos held

/-- The next session of a link is opened (R164). -/
def LinkState.openNext (k : LinkState) : LinkState := { k with session := k.session + 1, isOpen := true }

/-- Between two states of a link its slots have kept to R160, and so have their sessions. -/
structure LinkState.KeepsSlots (k m : LinkState) : Prop where
  room : k.hasRoom → m.hasRoom
  own : k.reservedNow → m.reservedNow

namespace LinkState.KeepsSlots

variable {k m n : LinkState}

theorem refl (k : LinkState) : k.KeepsSlots k := ⟨id, id⟩

theorem trans (h : k.KeepsSlots m) (g : m.KeepsSlots n) : k.KeepsSlots n := ⟨g.room ∘ h.room, g.own ∘ h.own⟩

/-- No reservation is new, no more slots are in use, and a frame in reception was so before or has found a FREE slot. -/
theorem of_fewer (isOpen : m.isOpen = k.isOpen) (session : m.session = k.session)
    (receiver : m.receiver = .receiving → k.receiver = .receiving ∨ 1 ≤ k.freeSlots) (reserved : m.reserved ⊆ k.reserved)
    (count : m.reserved.length + m.fifo.length ≤ k.reserved.length + k.fifo.length) : k.KeepsSlots m := by
  refine ⟨fun ⟨fit, free⟩ => ⟨le_trans count fit, fun r => ?_⟩, fun ⟨now, closed⟩ => ⟨fun x hx => ?_, fun c => ?_⟩⟩
  · have := (receiver r).elim free id
    unfold LinkState.freeSlots at *
    omega
  · rw [session]
    exact now x (reserved hx)
  · rw [isOpen] at c
    exact List.subset_nil.mp (closed c ▸ reserved)

/-- Nothing that R160 speaks of has changed. -/
theorem of_same (same : m.slotSide = k.slotSide) : k.KeepsSlots m := by
  obtain ⟨isOpen, session, receiver, reserved, fifo⟩ : m.isOpen = k.isOpen ∧ m.session = k.session ∧
      m.receiver = k.receiver ∧ m.reserved = k.reserved ∧ m.fifo = k.fifo := by simpa [slotSide] using same
  exact of_fewer isOpen session (fun r => .inl (receiver ▸ r)) (reserved ▸ List.Subset.refl _) (by rw [reserved, fifo])

/-- Every reservation has gone and at most two messages stand, as after a CLOSE or a reset. -/
theorem of_cleared (reserved : m.reserved = []) (fifo : m.fifo.length ≤ 2) : k.KeepsSlots m := by
  have free : 1 ≤ m.freeSlots := by
    rw [freeSlots, reserved, slotLimit, List.length_nil]
    omega
  refine ⟨fun _ => ⟨?_, fun _ => free⟩, fun _ => ⟨by simp [reserved], fun _ => reserved⟩⟩
  rw [slotsFit, reserved, slotLimit, List.length_nil]
  omega

/-- A message takes the slot that was reserved for it. -/
theorem place (k : LinkState) (x : Byte) (m : Message) : k.KeepsSlots (k.place x m) := by
  refine of_fewer (by simp) (by simp) (fun r => .inl (place_receiver k x m ▸ r)) ?_ (place_slots k x m)
  rw [place_reserved]
  split
  · exact List.erase_subset
  · exact List.Subset.refl _

/-- One slot more is in use, and no frame is received. -/
theorem room_of_one_more (free : 1 ≤ k.freeSlots) (receiver : m.receiver ≠ .receiving)
    (count : m.reserved.length + m.fifo.length = k.reserved.length + k.fifo.length + 1) : m.hasRoom := by
  refine ⟨?_, fun r => absurd r receiver⟩
  rw [freeSlots] at free
  rw [slotsFit]
  omega

/-- A slot is reserved on an OPEN link that has one FREE and receives no frame. -/
theorem reserve (isOpen : k.isOpen = true) (receiver : k.receiver ≠ .receiving) (free : 1 ≤ k.freeSlots) :
    k.KeepsSlots k.reserve := by
  refine ⟨fun _ => room_of_one_more free receiver ?_, fun ⟨now, _⟩ => ⟨fun x hx => ?_, fun c => ?_⟩⟩
  · show (k.reserved ++ [k.session]).length + k.fifo.length = _
    rw [List.length_append, List.length_singleton]
    omega
  · exact (List.mem_append.mp hx).elim (now x) List.mem_singleton.mp
  · exact absurd (isOpen.symm.trans c) (by decide)

/-- A frame that is taken keeps the slot that it found FREE. -/
theorem take_hasRoom (free : 1 ≤ k.freeSlots) : k.take.hasRoom := by
  refine room_of_one_more free (fun r => nomatch r) ?_
  rw [take_reserved, take_fifo, List.length_append, List.length_singleton]
  omega

/-- A frame is taken on an OPEN link. -/
theorem take (isOpen : k.isOpen = true) (free : k.hasRoom → 1 ≤ k.freeSlots) : k.KeepsSlots k.take := by
  refine ⟨fun h => take_hasRoom (free h), fun ⟨now, _⟩ => ⟨fun x hx => ?_, fun c => ?_⟩⟩
  · exact (List.mem_append.mp hx).elim (now x) List.mem_singleton.mp
  · exact absurd (isOpen.symm.trans c) (by decide)

/-- A frame is taken and at once answered, on an OPEN link or a CLOSED one, where no slot but its own has moved meanwhile. -/
theorem answered {t : LinkState} (same : t.slotSide = k.take.slotSide) (free : k.hasRoom → 1 ≤ k.freeSlots) (msg : Message) :
    k.KeepsSlots (t.place k.session msg) := by
  have placed : k.take.KeepsSlots (t.place k.session msg) := (of_same same).trans (place t k.session msg)
  obtain ⟨isOpen, session, -, reserved, -⟩ : t.isOpen = k.isOpen ∧ t.session = k.session ∧ t.receiver = .idle ∧
      t.reserved = k.reserved ++ [k.session] ∧ t.fifo = k.fifo := by simpa [slotSide] using same
  have perm : (t.place k.session msg).reserved.Perm k.reserved := by
    rw [place_reserved, if_pos (by simp [reserved]), reserved]
    exact reserve_erase_perm k.reserved k.session
  refine ⟨fun h => placed.room (take_hasRoom (free h)), fun ⟨now, closed⟩ => ⟨fun x hx => ?_, fun c => ?_⟩⟩
  · rw [place_session, session]
    exact now x (perm.subset hx)
  · rw [place_isOpen, isOpen] at c
    exact List.perm_nil.mp (closed c ▸ perm)

/-- A frame is taken on a CLOSED link and opens its next session: its slot is given back. -/
theorem opened (isOpen : k.isOpen = false) (free : k.hasRoom → 1 ≤ k.freeSlots) (msg : Message) :
    k.KeepsSlots (k.take.openNext.place k.session msg) := by
  refine ⟨fun h => (place k.take.openNext k.session msg).room (take_hasRoom (free h)), fun ⟨_, closed⟩ => ?_⟩
  have none : (k.take.openNext.place k.session msg).reserved = [] := by
    rw [place_reserved]
    simp [openNext, closed isOpen]
  exact ⟨fun x hx => absurd (none ▸ hx) List.not_mem_nil, fun _ => none⟩

end LinkState.KeepsSlots
/-! ### Both links -/

theorem slotsOk_iff {s : State} : SlotsOk s ↔ ∀ l, (s.link l).hasRoom :=
  ⟨fun ⟨fitA, fitB, freeA, freeB⟩ l => match l with
    | .a => ⟨fitA, freeA⟩
    | .b => ⟨fitB, freeB⟩,
  fun h => ⟨(h .a).1, (h .b).1, (h .a).2, (h .b).2⟩⟩

theorem reservationsOk_iff {s : State} : ReservationsOk s ↔ ∀ l, (s.link l).reservedNow :=
  ⟨fun ⟨a, b⟩ l => match l with
    | .a => a
    | .b => b,
  fun h => ⟨h .a, h .b⟩⟩

/-- Both links have kept to R160. -/
def SlotsKept (s t : State) : Prop := ∀ l, (s.link l).KeepsSlots (t.link l)

namespace SlotsKept

variable {s t u : State}

theorem refl (s : State) : SlotsKept s s := fun _ => .refl _

theorem trans (h : SlotsKept s t) (g : SlotsKept t u) : SlotsKept s u := fun l => (h l).trans (g l)

/-- Nothing that R160 speaks of has changed on a link. -/
theorem of_same (same : ∀ l, (t.link l).slotSide = (s.link l).slotSide) : SlotsKept s t := fun l => .of_same (same l)

/-- Nothing behind link A's port has changed. -/
theorem of_spi (s : State) (p : SpiPort) : SlotsKept s { s with spi := p } := refl s

theorem of_links (links : LinksSame s t) : SlotsKept s t := of_same fun l => by rw [links.link]

theorem foldl {α : Type} {f : State → α → State} (h : ∀ (s : State) (x : α), SlotsKept s (f s x)) (xs : List α) (s : State) :
    SlotsKept s (xs.foldl f s) := by
  induction xs generalizing s with
  | nil => exact refl s
  | cons x xs ih => exact (h s x).trans (ih _)

/-- One link changes. -/
theorem updLink (s : State) (l : Link) {f : LinkState → LinkState} (h : (s.link l).KeepsSlots (f (s.link l))) :
    SlotsKept s (s.updLink l f) := fun k => by
  by_cases e : k = l
  · subst e
    rw [updLink_link]
    exact h
  · rw [updLink_link_other _ _ _ _ e]
    exact .refl _

theorem place (s : State) (l : Link) (x : Byte) (m : Message) : SlotsKept s (s.place l x m) := updLink s l (.place _ x m)

theorem giveNotice (s : State) (l : Link) (m : Message) : SlotsKept s (s.giveNotice l m) :=
  of_same fun k => by cases l <;> cases k <;> rfl

theorem giveFlashState (s : State) : SlotsKept s s.giveFlashState := of_same fun l => by
  rw [giveFlashState_link]
  split <;> rfl

theorem giveStart (s : State) : SlotsKept s s.giveStart := (giveNotice s _ _).trans (giveNotice _ _ _)

/-! ### The read path -/

theorem lookup (s : State) (w : Waiter) : SlotsKept s (s.lookup w) := of_links (State.TablesOnly.lookup s w).links

theorem lookups (s : State) (id : RecordId) (is : List Nat) : SlotsKept s (s.lookups id is) :=
  foldl (fun t _ => lookup t _) is s

/-- A record that has its outcome is answered in its slot. -/
theorem settle (s : State) (id : RecordId) : SlotsKept s (s.settle id) := by
  unfold State.settle
  split
  · exact refl s
  · next r _ =>
    split
    · exact place { s.withdraw r.id with records := (s.withdraw r.id).records.filter (fun q => q.id ≠ r.id) } _ _ _
    · exact refl s

theorem returnToLookup (s : State) (w : Waiter) : SlotsKept s (s.returnToLookup w) := by
  unfold State.returnToLookup
  split
  · exact refl s
  · split
    · exact refl s
    · exact (lookup s w).trans (settle _ _)

theorem release (s : State) (id : RecordId) : SlotsKept s (s.release id) := by
  unfold State.release
  split
  · exact refl s
  · have active : SlotsKept s (s.updRecord id (fun q => { q with state := .active })) := refl s
    exact (active.trans (lookups _ _ _)).trans (settle _ _)

theorem reexamine (s : State) : SlotsKept s s.reexamine := by
  refine foldl (fun t id => ?_) _ s
  unfold State.reexamineOne
  split
  · exact refl t
  · split
    · exact release t id
    · exact refl t

theorem handSlots (ws : List Waiter) (s : State) : SlotsKept s (handSlots ws s) := by
  induction ws generalizing s with
  | nil => exact refl s
  | cons w ws ih =>
    unfold Machine.handSlots
    split
    · dsimp only
      split
      · exact returnToLookup s w
      · exact (returnToLookup s w).trans (ih _)
    · exact ih s

theorem afterEnd (s : State) (a : Nat) : SlotsKept s (s.afterEnd a) := by
  refine (handSlots s.slotQueue s).trans (foldl (fun t w => ?_) _ _)
  unfold State.retryWay
  split
  · exact returnToLookup t w
  · exact refl t

/-- An entry leaves the table, and its way if it had one. -/
theorem endFill (s : State) (f : Fill) (a : Nat) : SlotsKept s ((s.releaseWay f).removeFill a) := by
  unfold State.releaseWay
  split <;> exact refl s

theorem deliver (s : State) (d : List Byte) (w : Waiter) : SlotsKept s (s.deliver d w) := by
  unfold State.deliver
  split
  · exact refl s
  · next r _ =>
    split
    · exact settle (s.updRecord w.id (fun q => (q.copyLine w.index d).setNeed w.index .haveLine)) _
    · exact settle ((s.dropClaim (r.lineOf w.index)).updRecord w.id
        (fun q => { q.setNeed w.index .haveLine with pinnedCount := q.pinnedCount + 1 })) _

theorem deliverBypass (s : State) (d : List Byte) (w : Waiter) : SlotsKept s (s.deliverBypass d w) := by
  unfold State.deliverBypass
  split
  · exact refl s
  · split
    · exact deliver s d w
    · exact returnToLookup s w

/-- Whichever way an entry ends, its waiters are served one by one and then the queues. -/
theorem arrive (s : State) (f : Fill) (d : List Byte) : SlotsKept s (s.arrive f d) := by
  unfold State.arrive
  split
  · exact ((endFill s f _).trans (foldl returnToLookup _ _)).trans (afterEnd _ _)
  · dsimp only
    split
    · next v _ =>
      have installed : SlotsKept s ((s.updSet (setIndex f.line)
          (fun c => c.install v (cacheTag f.line) (s.pinWaits f) d)).removeFill f.line) := refl s
      exact (installed.trans (foldl (fun t w => deliver t d w) _ _)).trans (afterEnd _ _)
    · have removed : SlotsKept s (s.removeFill f.line) := refl s
      exact (removed.trans (foldl (fun t w => deliverBypass t d w) _ _)).trans (afterEnd _ _)

theorem failWaiter (s : State) (w : Waiter) : SlotsKept s (s.failWaiter w) :=
  (of_links (State.TablesOnly.failNeed s w).links).trans (settle _ _)

theorem failFill (s : State) (a : Nat) : SlotsKept s (s.failFill a) := by
  unfold State.failFill
  split
  · exact refl s
  · exact ((endFill s _ _).trans (foldl failWaiter _ _)).trans (afterEnd _ _)

theorem failIfWaiting (n : NeedState) (s : State) (w : Waiter) : SlotsKept s (s.failIfWaiting n w) := by
  unfold State.failIfWaiting
  split
  · exact failWaiter s w
  · exact refl s

theorem failFills (s : State) : SlotsKept s s.failFills :=
  ((foldl (failIfWaiting _) _ s).trans (foldl (failIfWaiting _) _ _)).trans (foldl failFill _ _)

/-! ### Jobs, profiles and RESET_FLASH requests -/

theorem answerProfile (s : State) (p : PendingProfile) (st : Status) : SlotsKept s (s.answerProfile p st) := by
  unfold State.answerProfile
  split
  · exact refl s
  · exact place _ _ _ _

theorem answerResets (s : State) (st : Status) : SlotsKept s (s.answerResets st) := by
  have one : ∀ (u : State) (q : ResetRequest), SlotsKept u (answerReset st u q) := fun u q => by
    unfold answerReset
    split
    · exact refl u
    · exact place _ _ _ _
  exact foldl one s.fsq.resetRequests s

theorem endJob (s : State) (i : Nat) (o : Status) : SlotsKept s (s.endJob i o) := by
  cases job : s.jq.jobs[i]? with
  | none =>
    rw [State.endJob, job]
    exact refl s
  | some j =>
    have notified : SlotsKept s (s.jobNotified i j o) := fun l => by
      rw [jobNotified_link]
      split
      · exact .place ..
      · exact .refl _
    rw [endJob_at job]
    split
    · exact notified.trans (reexamine _)
    · exact notified

theorem endAllJobs (js : List Job) (s : State) : SlotsKept s (endAllJobs js s) := by
  induction js generalizing s with
  | nil => exact refl s
  | cons j js ih => exact (endJob s 0 .flashFault).trans (ih _)

theorem applyProfile (s : State) : SlotsKept s s.applyProfile := by
  unfold State.applyProfile
  split
  · exact refl s
  · next p _ => exact answerProfile (s.updFsq (fun q => { q with active := p.profile, pendingProfile := none })) p .ok

/-! ### What FSQ does of itself -/

theorem serveOldest (s : State) : SlotsKept s s.serveOldest := of_links (serveOldest_flashSide s).links

theorem arbitrate (s : State) : SlotsKept s s.arbitrate := (applyProfile s).trans (of_links (choose_flashSide _).links)

theorem enterReady (s : State) : SlotsKept s s.enterReady := arbitrate (s.setFlash .ready)

theorem suspendedDecision (s : State) : SlotsKept s s.suspendedDecision := by
  unfold State.suspendedDecision
  split_ifs
  · exact refl s
  · exact refl s
  · split <;> exact refl s

theorem kick (s : State) : SlotsKept s s.kick := by
  unfold State.kick
  split
  · exact refl s
  · split
    · exact arbitrate s
    · split <;> exact refl s
    · exact suspendedDecision s
    · exact refl s

theorem kickIfCreated (h : SlotsKept s t) (u : State) : SlotsKept s (kickIfCreated u t) := by
  unfold Machine.kickIfCreated
  split
  · exact h.trans (kick t)
  · exact h

theorem finishJob (s : State) (o : Status) : SlotsKept s (s.finishJob o) := by
  have ended : SlotsKept s ((s.endJob 0 o).setFlash .ready) := endJob s 0 o
  unfold State.finishJob
  dsimp only
  split
  · exact (ended.trans (applyProfile _)).trans (serveOldest _)
  · exact ended.trans (arbitrate _)

theorem timeOutJob (s : State) : SlotsKept s s.timeOutJob := endJob s 0 .flashTimeout

theorem resetTakesEffect (s : State) : SlotsKept s s.resetTakesEffect := by
  have aborted : SlotsKept s s.abortRunning := by
    unfold State.abortRunning
    split
    · exact endJob s 0 .aborted
    · exact refl s
  unfold State.resetTakesEffect
  split
  · exact refl s
  · exact refl s
  · exact aborted

theorem checkPassed (s : State) (j : Job) : SlotsKept s (s.checkPassed j) := by
  unfold State.checkPassed
  split
  · exact refl s
  · exact finishJob s .ok

theorem busyEnded (s : State) (j : Job) : SlotsKept s (s.busyEnded j) := by
  unfold State.busyEnded
  split_ifs
  · exact finishJob s .ok
  · exact checkPassed s j
  · exact refl s

theorem recoveryReady (s : State) : SlotsKept s s.recoveryReady := by
  have answered : SlotsKept s s.recoveryAnswered := by
    unfold State.recoveryAnswered
    split
    · exact (answerResets (s.setFlash .ready) .ok).trans (giveFlashState _)
    · exact answerResets (s.setFlash .ready) .ok
  have applied := answered.trans (applyProfile _)
  rw [recoveryReady_eq]
  split
  · exact applied
  · exact applied.trans (of_links (choose_flashSide _).links)

theorem recoveryFaulted (s : State) (c : FaultCause) : SlotsKept s (s.recoveryFaulted c) := by
  have failed : SlotsKept s (s.jobsFailed c) := trans (t := s.fillsFailed c) (failFills (s.faultEntered c)) (endAllJobs _ _)
  have profile : SlotsKept (s.jobsFailed c) (s.jobsFailed c).failProfile := by
    unfold State.failProfile
    split
    · exact refl _
    · exact answerProfile (State.updFsq _ fun q => { q with pendingProfile := none }) _ _
  rw [recoveryFaulted_eq]
  exact ((failed.trans profile).trans (answerResets _ _)).trans (giveFlashState _)

theorem startupReady (s : State) : SlotsKept s s.startupReady :=
  (giveStart (s.updFsq fun q => { q with state := .ready, wait := .none })).trans (arbitrate _)

/-- Time passes. -/
theorem advance (s : State) (n : Nat) : SlotsKept s (s.advance n) := of_same fun l => by cases l <;> rfl

end SlotsKept

end Sys2Proof.Machine
end

section
/-! PROOFS. R160: every request, every command and every step keep the reply slots and their sessions; settles O55. -/

namespace Sys2Proof.Machine

/-! ### The requests' own parts -/

/-- A job request that passes its checks finds a FREE slot for its JOB_DONE (R65). -/
theorem jobRequest_free {q : Request} {own : List (Bool × Status)} {d : JobSpec} {s : State}
    (checks : firstFailure (own ++ commonChecks q.link d.kind d.range s) = none) : 1 ≤ (s.link q.link).freeSlots := by
  have room : decide ((s.link q.link).freeSlots = 0) = false := check_passed checks (st := .replySpace) (by simp [commonChecks])
  have := of_decide_eq_false room
  omega

/-- What CLOSE leaves: two messages at most, and no reservation. -/
theorem keptAtClose_length (s : State) (l : Link) : (s.keptAtClose l).length ≤ 1 := by
  unfold State.keptAtClose
  split
  · simp
  · split
    · exact List.length_take_le _ _
    · simp

theorem openBody_of_closed {q : Request} {s : State} (isOpen : (s.link q.link).isOpen = false) : openBody q s =
    (s.updLink q.link LinkState.openNext).place q.link q.session
      (replyMessage .openSession q.tag .ok (openRecord ((s.link q.link).session + 1) s.fsq)) := by
  rw [openBody, if_neg (by simp [isOpen])]
  show Request.accept q .openSession (openRecord ((s.updLink q.link LinkState.openNext).link q.link).session
    (s.updLink q.link LinkState.openNext).fsq) (s.updLink q.link LinkState.openNext) = _
  rw [updLink_link, updLink_fsq]
  rfl

namespace SlotsKept

variable {s t u : State}

theorem refuse (q : Request) (k : Kind) (st : Status) (s : State) : SlotsKept s (q.refuse k st s) := place s _ _ _

theorem accept (q : Request) (k : Kind) (p : List Byte) (s : State) : SlotsKept s (q.accept k p s) := place s _ _ _

/-- The reply of a request that has changed nothing of the links. -/
theorem acceptAfter (h : SlotsKept s t) (q : Request) (k : Kind) (p : List Byte) : SlotsKept s (q.accept k p t) :=
  h.trans (accept q k p t)

theorem nopBody (q : Request) (s : State) : SlotsKept s (nopBody q s) := by
  unfold Machine.nopBody
  split
  · exact refuse q _ _ s
  · exact accept q _ _ s

theorem getStatsBody (q : Request) (s : State) : SlotsKept s (getStatsBody q s) := by
  unfold Machine.getStatsBody
  split
  · exact refuse q _ _ s
  · have counted := accept q .getStats (counterRecord s) s
    dsimp only
    split
    · exact counted.trans (of_same fun l => by cases l <;> rfl)
    · exact counted

theorem readBody (q : Request) (s : State) : SlotsKept s (readBody q s) := by
  unfold Machine.readBody
  split
  · exact refuse q _ _ s
  · unfold State.acceptRead
    dsimp only
    split
    · exact refl s
    · have looked := lookups (s.addRecord (newRecord q .read (payloadRange q.payload 2)))
      exact kickIfCreated ((looked _ _).trans (settle _ _)) s

theorem pinBody (q : Request) (s : State) : SlotsKept s (pinBody q s) := by
  unfold Machine.pinBody
  split
  · exact refuse q _ _ s
  · have claimed : SlotsKept s ((s.unpinnedLines (payloadRange q.payload 2)).foldl State.addClaim
        (s.addRecord (newRecord q .pin (payloadRange q.payload 2)))) :=
      trans (t := s.addRecord (newRecord q .pin (payloadRange q.payload 2))) (refl s)
        (foldl (f := State.addClaim) (fun t _ => refl t) _ _)
    exact kickIfCreated ((claimed.trans (lookups _ _ _)).trans (settle _ _)) s

theorem unpinBody (q : Request) (s : State) : SlotsKept s (unpinBody q s) := by
  unfold Machine.unpinBody
  split
  · exact refuse q _ _ s
  · exact acceptAfter (of_links (mapSets_linksSame s _)) q _ _

theorem invalidateBody (q : Request) (s : State) : SlotsKept s (invalidateBody q s) := by
  unfold Machine.invalidateBody
  split
  · exact refuse q _ _ s
  · exact acceptAfter (of_links (clearRange_linksSame s _)) q _ _

theorem probeBody (q : Request) (s : State) : SlotsKept s (probeBody q s) := by
  unfold Machine.probeBody
  dsimp only
  split_ifs
  · exact accept q _ _ s
  · exact refuse q _ _ s
  · exact refuse q _ _ s

/-- The job's own slot is reserved where one is FREE (R66). -/
theorem jobRequest {q : Request} (k : Kind) (own : List (Bool × Status)) (d : JobSpec) {s : State}
    (isOpen : (s.link q.link).isOpen = true) (receiver : (s.link q.link).receiver ≠ .receiving) :
    SlotsKept s (jobRequest q k own d s) := by
  cases checks : firstFailure (own ++ commonChecks q.link d.kind d.range s) with
  | some st =>
    rw [jobRequest_refuses checks]
    exact refuse q k st s
  | none =>
    have reserved : SlotsKept s (s.reserve q.link) := updLink s _ (.reserve isOpen receiver (jobRequest_free checks))
    have held := (reserved.trans (of_links (jobHeld_linksSame s q d))).trans (accept q k (leBytes 2 s.jq.nextId.toNat) _)
    rw [jobRequest_accepts checks, acceptJob_eq]
    split
    · exact held.trans (kick _)
    · exact held

theorem cancelBody (q : Request) (s : State) : SlotsKept s (cancelBody q s) := by
  unfold Machine.cancelBody State.afterCancel
  split
  · exact refuse q _ _ s
  · next i _ =>
    have ended := (endJob s i .cancelled).trans (accept q .cancelJob q.payload _)
    split
    · exact refuse q _ _ s
    · split
      · exact refuse q _ _ s
      · dsimp only
        split
        · exact ended.trans (kick _)
        · exact ended

theorem queryBody (q : Request) (s : State) : SlotsKept s (queryBody q s) := by
  unfold Machine.queryBody
  split
  · split
    · exact accept q _ _ s
    · exact refuse q _ _ s
  · split
    · exact accept q _ _ s
    · exact refuse q _ _ s

theorem setProfileBody (q : Request) (s : State) : SlotsKept s (setProfileBody q s) := by
  unfold Machine.setProfileBody State.pendProfile
  split
  · exact refuse q _ _ s
  · next x _ =>
    have pending : SlotsKept s (s.updFsq fun f => { f with pendingProfile := some (pendingOf q x) }) := refl s
    dsimp only
    split_ifs
    · exact refuse q _ _ s
    · exact refuse q _ _ s
    · exact pending
    · exact pending.trans (kick _)

theorem resetFlashBody (q : Request) (s : State) : SlotsKept s (resetFlashBody q s) := by
  unfold Machine.resetFlashBody
  dsimp only
  split
  · exact refl s
  · exact resetTakesEffect (s.listReset q)

theorem protectBody (q : Request) (s : State) : SlotsKept s (protectBody q s) := by
  unfold Machine.protectBody
  split
  · exact refuse q _ _ s
  · split
    · exact refuse q _ _ s
    · next i _ =>
      have entered : SlotsKept s { s with protection := s.protection.set i (some (protectEntryOf q.payload)) } := refl s
      exact entered.acceptAfter q _ _

theorem unprotectBody (q : Request) (s : State) : SlotsKept s (unprotectBody q s) := by
  unfold Machine.unprotectBody
  dsimp only
  split
  · next h =>
    have emptied : SlotsKept s { s with protection := s.protection.set (field q.payload 0 1) none } := refl s
    split
    · exact refuse q _ _ s
    · split
      · exact refuse q _ _ s
      · exact emptied.acceptAfter q _ _
  · exact refuse q _ _ s

/-- The session ends with its reservations. -/
theorem closeBody (q : Request) (s : State) : SlotsKept s (closeBody q s) := by
  have short := keptAtClose_length s q.link
  have cleared : SlotsKept s (s.updLink q.link fun k => k.close (s.keptAtClose q.link) (replyMessage .closeSession q.tag .ok [])) :=
    updLink s _ (.of_cleared rfl (by simp only [LinkState.close, List.length_append, List.length_singleton]; omega))
  unfold Machine.closeBody State.removeRecords
  dsimp only
  rw [foldl_removeRecord_frame]
  exact cleared

/-- A reset clears both links. -/
theorem of_clearBlocks (links : ∀ l, (t.link l).slotSide = LinkState.reset.slotSide) : SlotsKept s t := fun l => by
  have cleared : (s.link l).KeepsSlots .reset := .of_cleared rfl (Nat.zero_le 2)
  exact cleared.trans (.of_same (links l))

theorem partReset (s : State) : SlotsKept s s.partReset := of_clearBlocks fun l => by cases l <;> rfl

/-- The request's own part of every kind on an OPEN link, where no frame is received any more. -/
theorem bodyOf (k : Kind) {q : Request} {s : State} (isOpen : (s.link q.link).isOpen = true)
    (receiver : (s.link q.link).receiver ≠ .receiving) : SlotsKept s (bodyOf k q s) := by
  cases k with
  | openSession =>
    rw [Machine.bodyOf, openBody, if_pos isOpen]
    exact refuse q _ _ s
  | closeSession => exact closeBody q s
  | nop => exact nopBody q s
  | getStatus => exact accept q _ _ s
  | getStats => exact getStatsBody q s
  | read => exact readBody q s
  | pin => exact pinBody q s
  | unpin => exact unpinBody q s
  | invalidate => exact invalidateBody q s
  | probeLine => exact probeBody q s
  | program => exact jobRequest _ _ _ isOpen receiver
  | erase => exact jobRequest _ _ _ isOpen receiver
  | raw => exact jobRequest _ _ _ isOpen receiver
  | cancelJob => exact cancelBody q s
  | queryJob => exact queryBody q s
  | setProfile => exact setProfileBody q s
  | getProfile => exact accept q _ _ s
  | resetFlash => exact resetFlashBody q s
  | resetPart => exact partReset s
  | protect => exact protectBody q s
  | unprotect => exact unprotectBody q s
  | listProtect => exact accept q _ _ s

end SlotsKept

/-! ### A frame is taken -/

/-- A frame of a link has been taken, in a slot that was FREE. -/
structure Took (s : State) (l : Link) (u : State) : Prop where
  link : u.link l = (s.link l).take
  other : ∀ k, k ≠ l → u.link k = s.link k
  free : (s.link l).hasRoom → 1 ≤ (s.link l).freeSlots

namespace Took

variable {s u t : State} {l : Link}

/-- The frame is answered at once. -/
theorem answered (took : Took s l u) (same : (t.link l).slotSide = (u.link l).slotSide) (other : ∀ k, k ≠ l → t.link k = u.link k)
    (m : Message) : SlotsKept s (t.place l (s.link l).session m) := fun k => by
  by_cases e : k = l
  · subst e
    rw [place_link]
    exact .answered (same.trans (congrArg _ took.link)) took.free m
  · rw [place_link_other _ _ _ _ _ e, other k e, took.other k e]
    exact .refl _

theorem placed (took : Took s l u) (m : Message) : SlotsKept s (u.place l (s.link l).session m) :=
  took.answered rfl (fun _ _ => rfl) m

/-- The frame is taken on an OPEN link, and is to be answered. -/
theorem taken (took : Took s l u) (isOpen : (s.link l).isOpen = true) : SlotsKept s u := fun k => by
  by_cases e : k = l
  · subst e
    rw [took.link]
    exact .take isOpen took.free
  · rw [took.other k e]
    exact .refl _

/-- FRAMES_REJECTED rises, and FRAME_REJECT is the answer. -/
theorem rejected (took : Took s l u) (r : RejectReason) : SlotsKept s (u.reject l (s.link l).session r) :=
  took.answered (t := u.updLink l fun k => { k with framesRejected := k.framesRejected + 1 }) (by rw [updLink_link]; rfl)
    (fun k e => updLink_link_other _ _ _ _ e) _

/-- OPEN on a CLOSED link: the slot is given back before the new session has one. -/
theorem opened (took : Took s l u) (isOpen : (s.link l).isOpen = false) (tag : Byte) (p : List Byte) :
    SlotsKept s (openBody { link := l, session := (s.link l).session, tag := tag, payload := p } u) := by
  rw [openBody_of_closed (by rw [took.link, take_isOpen, isOpen])]
  intro k
  by_cases e : k = l
  · subst e
    rw [place_link, updLink_link, took.link]
    exact .opened isOpen took.free _
  · rw [place_link_other _ _ _ _ _ e, updLink_link_other _ _ _ _ e, took.other k e]
    exact .refl _

theorem served (took : Took s l u) (k : Kind) (tag : Byte) (p : List Byte) : SlotsKept s
    (({ link := l, session := (s.link l).session, tag := tag, payload := p } : Request).serve k (bodyOf k) u) := by
  have isOpen : (u.link l).isOpen = (s.link l).isOpen := by rw [took.link, take_isOpen]
  unfold Request.serve
  split
  · exact took.placed _
  · split
    · exact took.placed _
    · cases o : (s.link l).isOpen with
      | true => exact (took.taken o).trans (.bodyOf k (isOpen.trans o) (by rw [took.link]; exact fun r => nomatch r))
      | false =>
        next session _ =>
        cases k with
        | openSession => exact took.opened o tag p
        | resetPart => exact (SlotsKept.of_clearBlocks fun l => by cases l <;> rfl)
        | _ => exact absurd session (by simp [needsSession, isOpen, o])

end Took

end Sys2Proof.Machine
end

section
/-! PROOFS. R160: the outcome of every command, and O55. -/

namespace Sys2Proof.Machine

/-! ### Outcomes -/

/-- Where a command answers a next state, both links have kept to R160. -/
def EndsKept (s : State) (o : Host.Outcome State Fault Refusal) : Prop := ∀ t, o = .next t → SlotsKept s t

theorem endsKept_next {s t : State} (h : SlotsKept s t) : EndsKept s (.next t) := fun _ e => by cases e; exact h

theorem endsKept_fault (s : State) (f : Fault) : EndsKept s (.fault f) := fun _ e => by cases e

namespace EndsKept

variable {s u : State} {o : Host.Outcome State Fault Refusal}

theorem orFault (h : EndsKept s o) {c : Prop} {_ : Decidable c} {f : Fault} : EndsKept s (if c then o else .fault f) := by
  split
  · exact h
  · exact endsKept_fault s f

theorem unlessFault (h : EndsKept s o) {c : Prop} {_ : Decidable c} {f : Fault} : EndsKept s (if c then .fault f else o) := by
  split
  · exact endsKept_fault s f
  · exact h

theorem after (h : EndsKept u o) (g : SlotsKept s u) : EndsKept s o := fun t e => g.trans (h t e)

end EndsKept

/-! ### Reception of a frame -/

theorem ready_free {s : State} {l : Link} (h : s.ready l = true) : 1 ≤ (s.link l).freeSlots := by
  simp only [State.ready, Bool.and_eq_true, decide_eq_true_eq] at h
  exact h.2

/-- A frame is taken, whatever becomes of link A's port. -/
theorem took_take (s : State) (p : SpiPort) {l : Link} (free : (s.link l).hasRoom → 1 ≤ (s.link l).freeSlots) :
    Took s l (({ s with spi := p } : State).take l) where
  link := updLink_link { s with spi := p } l _
  other k e := updLink_link_other { s with spi := p } l k _ e
  free := free

/-- What becomes of a frame: taken in a slot that was FREE, or lost with no slot moved. -/
def Reception.KeepsSlots (s : State) (l : Link) : Reception → Prop
  | .taken u => Took s l u
  | .lost u => SlotsKept s u
  | .cannot _ => True

theorem receiveA_keepsSlots (s : State) (fits : List Byte → Bool) : (s.receiveA fits).KeepsSlots s .a := by
  obtain ⟨p, opened⟩ := openA_frame s
  have overrun : ∀ q, SlotsKept s (({ s with spi := q } : State).updLink .a LinkState.overrun) := fun q =>
    .of_same fun l => by cases l <;> rfl
  unfold State.receiveA
  rw [opened]
  dsimp only
  split
  · split
    · next ready => exact took_take s _ fun _ => ready_free ready
    · exact overrun _
  · split
    · next receiving =>
      split
      · exact took_take s _ fun room => room.2 receiving
      · trivial
    · exact overrun _
  · trivial
  · exact .of_spi s _

theorem receiveB_keepsSlots (s : State) (fits : List Byte → Bool) : (s.receiveB fits).KeepsSlots s .b := by
  unfold State.receiveB
  split
  · exact .refl s
  · split
    · split
      · next ready => exact took_take s s.spi fun _ => ready_free ready
      · exact .updLink s .b (.of_fewer rfl rfl (fun r => nomatch r) (List.Subset.refl _) le_rfl)
    · exact .updLink s .b (.of_same rfl)
    · next receiving =>
      split
      · exact took_take s s.spi fun room => room.2 receiving
      · trivial

theorem receive_keepsSlots (s : State) (l : Link) (frame : List Byte) : (s.receive l frame).KeepsSlots s l := by
  cases l with
  | a => exact receiveA_keepsSlots s _
  | b => exact receiveB_keepsSlots s fun buf => beginsFrame buf frame

namespace EndsKept

variable {s : State} {l : Link}

theorem outcome {r : Reception} (kept : r.KeepsSlots s l) {act : State → State} (acts : ∀ u, Took s l u → SlotsKept s (act u)) :
    EndsKept s (r.outcome act) := by
  cases r with
  | taken u => exact endsKept_next (acts u kept)
  | lost u => exact endsKept_next kept
  | cannot f => exact endsKept_fault s f

/-- Bytes of a frame write on link A are received only where the link was ready, or received them before. -/
theorem shiftInA (s : State) (bytes : List Byte → Option (List Byte)) : EndsKept s (s.shiftInA bytes) := fun t e => by
  obtain ⟨same, receiver⟩ := shiftInA_next e
  have kept : s.linkA.KeepsSlots { s.linkA with receiver := t.linkA.receiver, buffer := t.linkA.buffer } :=
    .of_fewer rfl rfl (fun r => (receiver r).imp_right ready_free) (List.Subset.refl _) le_rfl
  rw [same]
  exact SlotsKept.updLink s .a (f := fun k => { k with receiver := t.linkA.receiver, buffer := t.linkA.buffer }) kept

theorem arrival (v : Arrival) (frame : List Byte) {ends : Link → Host.Outcome State Fault Refusal}
    (whole : ∀ l, EndsKept s (ends l)) : EndsKept s (s.arrival v frame ends) := by
  cases v with
  | a => exact whole .a
  | b => exact whole .b
  | aUpTo n => exact shiftInA s _

end EndsKept

/-! ### Requests and rejects -/

/-- A LENGTH reject leaves link B's receiver DISCARDING (R157). -/
theorem discardRest_kept (s : State) (l : Link) : SlotsKept s (s.discardRest l) := by
  cases l with
  | a => exact .refl s
  | b => exact .updLink s .b (.of_fewer rfl rfl (fun r => nomatch r) (List.Subset.refl _) le_rfl)

namespace EndsKept

variable {s : State}

theorem requestArrives (s : State) (k : Kind) (v : Arrival) (tag : Byte) (p : List Byte) :
    EndsKept s (requestArrives k (bodyOf k) v tag p s) := by
  refine arrival v _ fun l => ?_
  unfold frameTaken
  dsimp only
  split
  · exact outcome (receive_keepsSlots s l _) fun u took => (took.rejected .length).trans (discardRest_kept _ l)
  · exact outcome (receive_keepsSlots s l _) fun u took => took.served k tag p

theorem execUnknownKind (s : State) (v : Arrival) (kind tag : Byte) (p : List Byte) :
    EndsKept s (execUnknownKind v kind tag p s) := by
  refine unlessFault (arrival v _ fun l => ?_)
  unfold unknownTaken
  dsimp only
  split
  · exact outcome (receive_keepsSlots s l _) fun u took => (took.rejected .length).trans (discardRest_kept _ l)
  · exact outcome (receive_keepsSlots s l _) fun u took => took.placed _

/-- Time passes up to an expiry, and then it acts. -/
theorem atExpiry (s : State) (left : Nat) {act : State → State} (acts : ∀ u, SlotsKept u (act u)) :
    EndsKept s (atExpiry s left act) := fun t e => by
  obtain ⟨-, rfl⟩ := atExpiry_next e
  exact (SlotsKept.advance s left).trans (acts _)

/-- A frame that breaks off is taken in the slot that its reception has kept FREE. -/
theorem truncateB (receiving : s.linkB.receiver = .receiving) : EndsKept s s.truncateB := fun t e => by
  obtain ⟨-, rfl⟩ := atExpiry_next e
  have took : ∀ n, Took (s.advance n) .b ((s.advance n).take .b) := fun n =>
    took_take _ (s.advance n).spi fun room => room.2 receiving
  exact (SlotsKept.advance s _).trans ((took _).rejected .truncated)

theorem beginFrameB (ready : s.ready .b = true) : SlotsKept s s.beginFrameB :=
  .updLink s .b (.of_fewer rfl rfl (fun _ => .inr (ready_free ready)) (List.Subset.refl _) le_rfl)

theorem overrunB (s : State) : SlotsKept s (s.updLink .b LinkState.overrunB) :=
  .updLink s .b (.of_fewer rfl rfl (fun r => nomatch r) (List.Subset.refl _) le_rfl)

/-- The inter-byte timer starts again. -/
theorem restartTimer (s : State) : SlotsKept s (s.updLink .b fun k => { k with interByte := 0 }) := .updLink s .b (.of_same rfl)

theorem truncatedB (s : State) : EndsKept s s.truncatedB := by
  unfold State.truncatedB
  split
  · exact endsKept_next (.refl s)
  · split
    · split
      · next ready => exact (truncateB (s := s.beginFrameB) rfl).after (beginFrameB ready)
      · exact endsKept_next (overrunB s)
    · next receiving => exact truncateB receiving
    · exact endsKept_next (restartTimer s)

theorem execFrameReject (s : State) (v : RejectArrival) (r : RejectReason) : EndsKept s (execFrameReject v r s) := by
  cases v with
  | a => exact outcome (receiveA_keepsSlots s _) fun u took => took.rejected r
  | aBytes bytes => exact shiftInA s _
  | b =>
    cases r with
    | truncated => exact truncatedB s
    | length =>
      exact outcome (receiveB_keepsSlots s _) fun u took => (took.rejected .length).trans (discardRest_kept _ .b)
    | crc => exact outcome (receiveB_keepsSlots s _) fun u took => took.rejected .crc

/-! ### The links -/

theorem execLinkAOverrun (s : State) : EndsKept s (execLinkAOverrun s) := by
  obtain ⟨p, opened⟩ := openA_frame s
  have overrun : ∀ q, SlotsKept s (({ s with spi := q } : State).updLink .a LinkState.overrun) := fun q =>
    .of_same fun l => by cases l <;> rfl
  unfold Machine.execLinkAOverrun
  rw [opened]
  dsimp only
  split
  · next selected =>
    split
    · exact endsKept_fault s _
    · next busy =>
      simp only [State.receiveA, opened, selected, busy]
      exact endsKept_next (overrun _)
  · next writing =>
    split
    · exact endsKept_fault s _
    · next idle =>
      simp only [State.receiveA, opened, writing, idle]
      exact endsKept_next (overrun _)
  · exact endsKept_fault s _
  · exact endsKept_next (.of_spi s _)

theorem execLinkBOverrun (s : State) : EndsKept s (execLinkBOverrun s) := by
  unfold Machine.execLinkBOverrun
  split_ifs
  · exact endsKept_next (.refl s)
  · exact endsKept_next (overrunB s)
  · exact endsKept_fault s _

theorem fall (s : State) : EndsKept s s.fall := (endsKept_next (.of_spi s _)).orFault

theorem firstByte_ignored (s : State) : EndsKept s (s.firstByte (fun t b => t.selectA b .ignored)) := by
  obtain ⟨p, opened⟩ := openA_frame s
  unfold State.firstByte
  rw [opened]
  dsimp only
  split
  · exact endsKept_next (.of_spi s _)
  · exact endsKept_next (.of_spi s _)
  · exact endsKept_fault s _

theorem execLinkAIgnored (s : State) (part : IgnoredPart) : EndsKept s (execLinkAIgnored part s) := by
  unfold Machine.execLinkAIgnored
  cases part with
  | fall => exact fall s
  | select b => exact (firstByte_ignored s).unlessFault
  | rise =>
    dsimp only
    split
    · exact endsKept_next (.of_spi s _)
    · exact endsKept_next (.of_spi s _)
    · exact endsKept_fault s _
  | whole b =>
    refine unlessFault ?_
    split
    · next t e => exact endsKept_next ((firstByte_ignored s t e).trans (.of_spi t _))
    · exact firstByte_ignored s

/-- A message that is sent leaves its slot FREE. -/
theorem sent (k : LinkState) (source : Source) (replaced : Bool) : k.KeepsSlots (k.sent source replaced) := by
  unfold LinkState.sent
  split
  · exact .of_fewer rfl rfl .inl (List.Subset.refl _) (Nat.add_le_add_left (List.drop_sublist 1 k.fifo).length_le _)
  · split <;> exact .of_same rfl

theorem execFetch (s : State) (part : FetchPart) : EndsKept s (execFetch part s) := fun t e => by
  obtain ⟨same, fifo, -⟩ := execFetch_next e
  have count : t.linkA.fifo.length ≤ s.linkA.fifo.length := by
    rcases fifo with stays | left
    · rw [stays]
    · rw [left]
      exact (List.drop_sublist 1 _).length_le
  have kept : s.linkA.KeepsSlots { s.linkA with fifo := t.linkA.fifo, holder := t.linkA.holder } :=
    .of_fewer rfl rfl .inl (List.Subset.refl _) (Nat.add_le_add_left count _)
  rw [same]
  exact SlotsKept.updLink s .a (f := fun k => { k with fifo := t.linkA.fifo, holder := t.linkA.holder }) kept

/-- A message in transmission keeps its slot. -/
theorem transmit (s : State) (m : Message) (source : Source) : SlotsKept s (s.transmit m source) :=
  .of_same fun l => by cases l <;> cases source <;> rfl

theorem execTransmitBegin (s : State) (cts : Bool) : EndsKept s (execTransmitBegin s cts) := by
  unfold Machine.execTransmitBegin
  dsimp only
  split
  · exact endsKept_next (transmit { s with pins := { s.pins with cts := true } } _ _)
  · exact endsKept_next (.refl s)

theorem execTransmitEnd (s : State) : EndsKept s (execTransmitEnd s) := by
  unfold Machine.execTransmitEnd
  split
  · exact endsKept_fault s _
  · exact endsKept_next (.refl s)
  · exact endsKept_next (.updLink s .b (f := fun k => k.sent .fifo false) (sent s.linkB .fifo false))

theorem execInterByteExpiry (s : State) : EndsKept s (execInterByteExpiry s) := by
  unfold Machine.execInterByteExpiry
  split
  · exact endsKept_fault s _
  · next receiving => exact truncateB receiving
  · exact atExpiry s _ fun u => .updLink u .b (.of_fewer rfl rfl (fun r => nomatch r) (List.Subset.refl _) le_rfl)

/-- A frame on link B whose last byte has come in is served, answered as unknown, or rejected. -/
theorem takeWholeB (receiving : s.linkB.receiver = .receiving) (bytes : List Byte) : SlotsKept s (s.takeWholeB bytes) := by
  have took : Took s .b (s.take .b) := took_take s s.spi fun room => room.2 receiving
  unfold State.takeWholeB
  dsimp only
  split
  · split
    · exact took.served _ _ _
    · exact took.placed _
  · exact took.rejected .crc

theorem storeByteB (receiving : s.linkB.receiver = .receiving) (b : Byte) : SlotsKept s (s.storeByteB b) := by
  have took : Took s .b (s.take .b) := took_take s s.spi fun room => room.2 receiving
  unfold State.storeByteB
  dsimp only
  split_ifs
  · exact (took.rejected .length).trans (discardRest_kept _ .b)
  · exact takeWholeB receiving _
  · exact .updLink s .b (.of_same rfl)

theorem execByteReceived (s : State) (b : Byte) : EndsKept s (execByteReceived b s) := by
  unfold Machine.execByteReceived
  split
  · exact endsKept_next (.refl s)
  · split
    · split_ifs with sync ready
      · exact endsKept_next (beginFrameB ready)
      · exact endsKept_next (overrunB s)
      · exact endsKept_next (.refl s)
    · next receiving => exact endsKept_next (storeByteB receiving b)
    · exact endsKept_next (restartTimer s)

/-! ### The flash port: fills and jobs -/

theorem afterFill (s : State) : SlotsKept s s.afterFill := by
  unfold State.afterFill
  split_ifs
  · exact .resetTakesEffect s
  · exact .suspendedDecision s
  · exact .enterReady s

theorem execFillArrival (s : State) (data : List Byte) : EndsKept s (execFillArrival data s) := by
  unfold Machine.execFillArrival
  split
  · exact endsKept_fault s _
  · refine unlessFault ?_
    split
    · exact endsKept_fault s _
    · next f _ => exact endsKept_next ((SlotsKept.arrive s.endPort f data).trans (afterFill _))

theorem jobTransactionEnd (s : State) (use : TransactionUse) {act : Job → State → State}
    (acts : ∀ j u, SlotsKept u (act j u)) : EndsKept s (jobTransactionEnd s use act) := by
  unfold Machine.jobTransactionEnd
  refine orFault ?_
  split
  · exact endsKept_fault s _
  · refine endsKept_next ?_
    split
    · exact .resetTakesEffect s.endPort
    · exact acts _ s.endPort

theorem execDescriptorEnd (s : State) (data : List Byte) : EndsKept s (execDescriptorEnd data s) := by
  unfold Machine.execDescriptorEnd
  refine unlessFault (jobTransactionEnd s _ fun j u => ?_)
  unfold State.descriptorEnded
  dsimp only
  split
  · exact .refl u
  · exact .finishJob (u.updHead fun h => { h with dataIn := data }) .ok

theorem statusRead (s : State) (b : Byte) (j : Job) : SlotsKept s (s.statusRead b j) := by
  unfold State.statusRead
  split_ifs
  · exact .busyEnded s j
  · exact .timeOutJob s
  · exact .refl s
  · exact .refl s

theorem execPollExpiry (s : State) : EndsKept s (execPollExpiry s) := by
  unfold Machine.execPollExpiry
  refine orFault ?_
  exact atExpiry s _ fun u => .refl u

theorem execOperationTimeout (s : State) : EndsKept s (execOperationTimeout s) := by
  unfold Machine.execOperationTimeout
  refine orFault ?_
  split
  · exact endsKept_fault s _
  · dsimp only
    split
    · exact atExpiry s _ .timeOutJob
    · exact atExpiry s _ fun u => .refl u

theorem errorStatusRead (s : State) (b : Byte) (j : Job) : SlotsKept s (s.errorStatusRead b j) := by
  unfold State.errorStatusRead
  split_ifs
  · exact .finishJob s _
  · exact .refl s
  · exact .checkPassed s j

theorem execVerifyEnd (s : State) (data : List Byte) : EndsKept s (execVerifyEnd data s) := by
  unfold Machine.execVerifyEnd
  exact (jobTransactionEnd s _ fun _ u => .finishJob u _).unlessFault

/-! ### Suspension -/

theorem execHoldExpiry (s : State) : EndsKept s (execHoldExpiry s) := by
  unfold Machine.execHoldExpiry
  dsimp only
  split
  · exact endsKept_fault s _
  · split_ifs
    · exact endsKept_fault s _
    · refine atExpiry s _ fun u => ?_
      split <;> exact .refl u
    · exact atExpiry s _ fun u => .refl u
    · exact endsKept_fault s _

theorem suspendedStatus (s : State) (b : Byte) (j : Job) : SlotsKept s (s.suspendedStatus b j) := by
  unfold State.suspendedStatus
  dsimp only
  split_ifs
  · exact .suspendedDecision (((s.setPhase .suspended).setFlash .suspended).updFsq fun q => { q with fillsServed := 0 })
  · exact .busyEnded ((s.setPhase .busy).setFlash .job) j
  · exact .timeOutJob s
  · exact .refl s

theorem execSuspendPollExpiry (s : State) : EndsKept s (execSuspendPollExpiry s) := by
  unfold Machine.execSuspendPollExpiry
  refine orFault ?_
  exact atExpiry s _ fun u => .refl u

theorem execSuspendTimeout (s : State) : EndsKept s (execSuspendTimeout s) := by
  unfold Machine.execSuspendTimeout
  dsimp only
  split_ifs
  · exact atExpiry s _ .timeOutJob
  · exact atExpiry s _ fun u => .refl u
  · exact endsKept_fault s _

theorem execResumeEnd (s : State) : EndsKept s (execResumeEnd s) := by
  have again : SlotsKept s s.endPort.resumed := .of_same fun l => by cases l <;> rfl
  unfold Machine.execResumeEnd
  refine orFault ?_
  split
  · exact endsKept_fault s _
  · refine endsKept_next ?_
    split
    · exact again.trans (.resetTakesEffect _)
    · exact again

/-! ### Recovery -/

theorem recoveryStep (s : State) {act : State → State} (acts : ∀ u, SlotsKept u (act u)) : SlotsKept s (s.recoveryStep act) := by
  unfold State.recoveryStep
  dsimp only
  split_ifs
  · exact .recoveryFaulted s.endPort _
  · exact .refl s
  · exact acts s.endPort

theorem execRecoveryResetEnd (s : State) : EndsKept s (execRecoveryResetEnd s) := by
  unfold Machine.execRecoveryResetEnd
  split_ifs
  · exact endsKept_next (recoveryStep s .refl)
  · exact endsKept_next (recoveryStep s .refl)
  · exact endsKept_fault s _

theorem execRecoveryWaitEnd (s : State) : EndsKept s (execRecoveryWaitEnd s) := by
  unfold Machine.execRecoveryWaitEnd
  refine orFault ?_
  exact atExpiry s _ fun u => .refl u

theorem recoveryStatus (s : State) (b : Byte) : SlotsKept s (s.recoveryStatus b) := by
  unfold State.recoveryStatus
  split_ifs
  · exact .refl s
  · exact .recoveryReady s
  · exact .refl s
  · exact .recoveryFaulted s _

theorem execRecoveryStatusEnd (s : State) (b : Byte) : EndsKept s (execRecoveryStatusEnd b s) := by
  unfold Machine.execRecoveryStatusEnd
  exact (endsKept_next (recoveryStep s fun u => recoveryStatus u b)).orFault

theorem recoveryId (s : State) (i : FlashId) : SlotsKept s (s.recoveryId i) := by
  unfold State.recoveryId
  dsimp only
  split
  · exact .recoveryFaulted (s.updFsq fun q => { q with flashId := i }) _
  · exact .recoveryReady (s.updFsq fun q => { q with flashId := i })

theorem execRecoveryIdEnd (s : State) (i : FlashId) : EndsKept s (execRecoveryIdEnd i s) := by
  unfold Machine.execRecoveryIdEnd
  exact (endsKept_next (recoveryStep s fun u => recoveryId u i)).orFault

theorem execRecoveryTimeout (s : State) : EndsKept s (execRecoveryTimeout s) := by
  unfold Machine.execRecoveryTimeout
  dsimp only
  split_ifs
  · exact atExpiry s _ fun u => .recoveryFaulted u _
  · exact atExpiry s _ fun u => .refl u
  · exact endsKept_fault s _

/-! ### Resets and start-up -/

theorem execPinResetRelease (s : State) (cap : Fin 8) (baud : Fin 4) : EndsKept s (execPinResetRelease cap baud s) := by
  unfold Machine.execPinResetRelease
  exact (endsKept_next (.of_same fun l => by cases l <;> rfl)).orFault

theorem execStartupSettleEnd (s : State) : EndsKept s (execStartupSettleEnd s) := by
  unfold Machine.execStartupSettleEnd
  refine orFault ?_
  exact atExpiry s _ fun u => .refl u

theorem execStartupResetEnd (s : State) : EndsKept s (execStartupResetEnd s) := by
  unfold Machine.execStartupResetEnd
  split_ifs
  · exact endsKept_next (.refl s)
  · exact endsKept_next (.refl s)
  · exact endsKept_fault s _

theorem execStartupWaitEnd (s : State) : EndsKept s (execStartupWaitEnd s) := by
  unfold Machine.execStartupWaitEnd
  refine orFault ?_
  exact atExpiry s _ fun u => .refl u

theorem startupFaulted (s : State) (c : FaultCause) : SlotsKept s (s.startupFaulted c) :=
  .giveStart (s.updFsq fun q => { q with state := .faulted, cause := c, wait := .none })

theorem execStartupIdEnd (s : State) (i : FlashId) : EndsKept s (execStartupIdEnd i s) := by
  unfold Machine.execStartupIdEnd
  refine orFault (endsKept_next ?_)
  split
  · exact startupFaulted (s.endPort.updFsq fun q => { q with flashId := i }) _
  · exact .refl s

theorem execStartupStatusEnd (s : State) (b : Byte) : EndsKept s (execStartupStatusEnd b s) := by
  unfold Machine.execStartupStatusEnd
  refine orFault (endsKept_next ?_)
  split_ifs
  · exact .startupReady s.endPort
  · exact startupFaulted s.endPort _
  · exact .refl s

theorem execStartupPollExpiry (s : State) : EndsKept s (execStartupPollExpiry s) := by
  unfold Machine.execStartupPollExpiry
  refine orFault ?_
  exact atExpiry s _ fun u => .refl u

theorem execStartupBusyLimit (s : State) : EndsKept s (execStartupBusyLimit s) := by
  unfold Machine.execStartupBusyLimit
  dsimp only
  split_ifs
  · exact atExpiry s _ fun u => startupFaulted u _
  · exact atExpiry s _ fun u => .refl u
  · exact endsKept_fault s _

/-! ### Every command and every step -/

theorem exec (s : State) (c : Instr) : EndsKept s (exec c s) := by
  cases c with
  | powerOn cap baud => exact endsKept_next (.of_clearBlocks fun l => by cases l <;> rfl)
  | pinResetAssert => exact endsKept_next (.of_clearBlocks fun l => by cases l <;> rfl)
  | pinResetRelease cap baud => exact execPinResetRelease s cap baud
  | startupSettleEnd => exact execStartupSettleEnd s
  | startupResetCommandEnd => exact execStartupResetEnd s
  | startupRecoveryWaitEnd => exact execStartupWaitEnd s
  | startupIdReadEnd i => exact execStartupIdEnd s i
  | startupStatusReadEnd b => exact execStartupStatusEnd s b
  | startupPollIntervalExpiry => exact execStartupPollExpiry s
  | startupBusyLimitExpiry => exact execStartupBusyLimit s
  | openSession v tag p => exact requestArrives s .openSession v tag p
  | closeSession v tag p => exact requestArrives s .closeSession v tag p
  | nop v tag p => exact requestArrives s .nop v tag p
  | getStatus v tag p => exact requestArrives s .getStatus v tag p
  | getStats v tag p => exact requestArrives s .getStats v tag p
  | read v tag p => exact requestArrives s .read v tag p
  | pin v tag p => exact requestArrives s .pin v tag p
  | unpin v tag p => exact requestArrives s .unpin v tag p
  | invalidate v tag p => exact requestArrives s .invalidate v tag p
  | probeLine v tag p => exact requestArrives s .probeLine v tag p
  | program v tag p => exact requestArrives s .program v tag p
  | erase v tag p => exact requestArrives s .erase v tag p
  | raw v tag p => exact requestArrives s .raw v tag p
  | cancelJob v tag p => exact requestArrives s .cancelJob v tag p
  | queryJob v tag p => exact requestArrives s .queryJob v tag p
  | setProfile v tag p => exact requestArrives s .setProfile v tag p
  | getProfile v tag p => exact requestArrives s .getProfile v tag p
  | resetFlash v tag p => exact requestArrives s .resetFlash v tag p
  | resetPart v tag p => exact requestArrives s .resetPart v tag p
  | protect v tag p => exact requestArrives s .protect v tag p
  | unprotect v tag p => exact requestArrives s .unprotect v tag p
  | listProtect v tag p => exact requestArrives s .listProtect v tag p
  | unknownKind v kind tag p => exact execUnknownKind s v kind tag p
  | frameReject v r => exact execFrameReject s v r
  | linkAOverrun => exact execLinkAOverrun s
  | linkAIgnoredTransaction part => exact execLinkAIgnored s part
  | fetch part => exact execFetch s part
  | linkBOverrun => exact execLinkBOverrun s
  | interByteTimerExpiry => exact execInterByteExpiry s
  | linkBTransmitBegin cts => exact execTransmitBegin s cts
  | linkBTransmitEnd => exact execTransmitEnd s
  | fillArrival data => exact execFillArrival s data
  | writeEnableEnd => exact jobTransactionEnd s .writeEnable (act := fun j t => t.begin (t.mainTransaction j)) fun _ u => .refl u
  | programTransactionEnd => exact jobTransactionEnd s .program (act := fun _ t => t.enterBusy) fun _ u => .refl u
  | eraseTransactionEnd => exact jobTransactionEnd s .erase (act := fun _ t => t.enterBusy) fun _ u => .refl u
  | descriptorTransactionEnd data => exact execDescriptorEnd s data
  | statusReadEnd b => exact jobTransactionEnd s _ fun j u => statusRead u b j
  | pollIntervalExpiry => exact execPollExpiry s
  | operationTimeout => exact execOperationTimeout s
  | errorStatusReadEnd b => exact jobTransactionEnd s _ fun j u => errorStatusRead u b j
  | clearStatusEnd => exact jobTransactionEnd s _ fun j u => .finishJob u _
  | verifyReadEnd data => exact execVerifyEnd s data
  | holdTimeExpiry => exact execHoldExpiry s
  | suspendCommandEnd =>
    exact jobTransactionEnd s .suspendCommand
      (act := fun _ t => (t.updFsq (fun q => { q with suspendTime := 0 })).beginSuspendedRead) fun _ u => .refl u
  | suspendedStatusReadEnd b => exact jobTransactionEnd s _ fun j u => suspendedStatus u b j
  | suspendPollIntervalExpiry => exact execSuspendPollExpiry s
  | suspendTimeout => exact execSuspendTimeout s
  | resumeEnd => exact execResumeEnd s
  | recoveryResetCommandEnd => exact execRecoveryResetEnd s
  | recoveryWaitEnd => exact execRecoveryWaitEnd s
  | recoveryStatusReadEnd b => exact execRecoveryStatusEnd s b
  | recoveryIdReadEnd i => exact execRecoveryIdEnd s i
  | recoveryTimeout => exact execRecoveryTimeout s
  | linkBByteReceived b => exact execByteReceived s b

theorem step (s : State) : EndsKept s (step s) := fun t e => by
  rcases step_next e with ⟨-, rfl⟩ | ⟨c, rest, -, done⟩
  · unfold State.tick
    split
    · exact .advance s 1
    · exact .refl s
  · exact exec { s with pending := rest } c t done

end EndsKept

/-- Settles O55: every command keeps, on each link, the slots within 16 and every reservation under the present session. -/
theorem stepKeepsReplySlots : Obligations.StepKeepsReplySlots := by
  intro s t h
  have kept := EndsKept.step s t h
  exact ⟨fun ok => slotsOk_iff.mpr fun l => (kept l).room (slotsOk_iff.mp ok l),
    fun ok => reservationsOk_iff.mpr fun l => (kept l).own (reservationsOk_iff.mp ok l)⟩

end Sys2Proof.Machine
end

section
/-! PROOFS. A request that is refused at once on either kind of link, and OPEN (R159, R161, R164, R172). -/

namespace Sys2Proof.Machine

/-! ### Steps 4 and 5 of R159 -/

/-- A request whose frame is taken is served on the state with the frame taken. -/
theorem exec_served {k : Kind} {l : Link} {tag : Byte} {p : List Byte} {s : State} (ht : s.takesRequest k l tag p = true) :
    exec (requestOf k l tag p) s =
      .next (({ link := l, session := (s.link l).session, tag := tag, payload := p } : Request).serve k (bodyOf k)
        (s.afterTake l)) := by
  have arrives : exec (requestOf k l tag p) s = requestArrives k (bodyOf k) l.arrival tag p s := by cases k <;> rfl
  rw [arrives, requestArrives_arrival, frameTaken_of_takes _ _ _ _ _ _ ht]

/-- A refusal of a request on a CLOSED link is discarded. -/
theorem refusal_discarded (k : Kind) {l : Link} (tag : Byte) (p : List Byte) (st : Status) {s : State}
    (closed : (s.link l).isOpen = false) : FrameTaken l (s.link l).fifo (s.link l).reserved s
      (({ link := l, session := (s.link l).session, tag := tag, payload := p } : Request).refuse k st (s.afterTake l)) :=
  discarded_at_once s l _ closed

theorem needsSession_eq_true {k : Kind} (hOpen : k ≠ .openSession) (hReset : k ≠ .resetPart) : needsSession k = true := by
  cases k <;> simp [needsSession] at *

/-- Settles O10: step 4 of R159 refuses, and a refusal of a CLOSED link is discarded. -/
theorem closedLinkDiscardsItsRefusals : Obligations.ClosedLinkDiscardsItsRefusals := by
  intro k l tag p s hOpen hReset ht closed
  refine ⟨_, ?_, refusal_discarded k tag p .notOpen closed, blocks_of_place s l _ _⟩
  rw [exec_served ht, serve_closed _ _ _ _ (needsSession_eq_true hOpen hReset) (by simpa using closed)]

theorem wrongSize_eq_true {k : Kind} {p : List Byte} {n : Nat} (fixed : fixedSize k = some n) (ne : p.length ≠ n) :
    wrongSize k p = true := by simp [wrongSize, fixed, ne]

/-- Settles O11: step 5 of R159 where step 4 passes; a CLOSED link discards the refusal of either. -/
theorem wrongSizeIsBadField : Obligations.WrongSizeIsBadField := by
  intro k l tag p n s fixed ne ht
  have size := wrongSize_eq_true fixed ne
  have badField : needsSession k = false ∨ (s.link l).isOpen = true →
      exec (requestOf k l tag p) s = .next (({ link := l, session := (s.link l).session, tag := tag, payload := p } :
        Request).refuse k .badField (s.afterTake l)) := fun passed => by
    rw [exec_served ht, serve_wrongSize _ _ _ _ (by simpa using passed) size]
  cases isOpen : (s.link l).isOpen with
  | true =>
    exact ⟨_, badField (.inr isOpen), blocks_of_place s l _ _, fun _ => refused_at_once k tag p .badField isOpen,
      (fun closed => by cases closed)⟩
  | false =>
    cases session : needsSession k with
    | true =>
      refine ⟨_, ?_, blocks_of_place s l _ _, (fun opened => by cases opened), fun _ => refusal_discarded k tag p .notOpen isOpen⟩
      rw [exec_served ht, serve_closed _ _ _ _ session (by simpa using isOpen)]
      rfl
    | false =>
      exact ⟨_, badField (.inl session), blocks_of_place s l _ _, (fun opened => by cases opened),
        fun _ => refusal_discarded k tag p .badField isOpen⟩

/-! ### OPEN -/

/-- OPEN on a CLOSED link runs its own part with the session check passed. -/
theorem exec_open {l : Link} {tag : Byte} {s : State} (ht : s.takesRequest .openSession l tag [] = true) :
    exec (.openSession l.arrival tag []) s =
      .next (openBody { link := l, session := (s.link l).session, tag := tag, payload := [] } (s.afterTake l)) :=
  exec_served ht

/-- The reply of an OPEN takes the slot of its frame, which was reserved under the session before. -/
theorem take_openNext_place (k : LinkState) (m : Message) : k.take.openNext.place k.session m =
    { k.take.openNext with reserved := (k.reserved ++ [k.session]).erase k.session, fifo := k.fifo ++ [m] } :=
  place_of_mem (k := k.take.openNext) (List.mem_append_right _ List.mem_cons_self) m

/-- Settles O16. -/
theorem openOpensASession : Obligations.OpenOpensASession := by
  intro l tag s ht
  refine ⟨fun closed => ?_, fun isOpen => ⟨_, exec_open ht, ?_⟩⟩
  · have body := openBody_of_closed (q := { link := l, session := (s.link l).session, tag := tag, payload := [] })
      (s := s.afterTake l) (by simpa using closed)
    refine ⟨_, body ▸ exec_open ht, ?_⟩
    dsimp only
    rw [place_link, updLink_link, afterTake_link, take_openNext_place, afterTake_fsq]
    refine ⟨rfl, rfl, rfl, reserve_erase_perm _ _, rfl, rfl, ?_, ?_⟩
    · refine ⟨?_, ?_, ?_, ?_, ?_⟩ <;> cases l <;> rfl
    · refine ⟨⟨?_, ?_, ?_⟩, ⟨?_, ?_, ?_⟩, ?_, ?_⟩ <;> cases l <;> rfl
  · rw [openBody, if_pos (by simpa using isOpen)]
    exact refused_at_once _ _ _ _ isOpen

end Sys2Proof.Machine
end

section
/-! PROOFS. A frame is taken with a reject (R155, R157, R159). -/

namespace Sys2Proof.Machine

/-! ### What a reject leaves of its link -/

/-- A frame of the link has been taken and rejected, whatever has become of the receiver. -/
structure LinkState.Rejected (r : RejectReason) (k m : LinkState) : Prop where
  framesTaken : m.framesTaken = k.framesTaken + 1
  framesRejected : m.framesRejected = k.framesRejected + 1
  fifo : m.fifo = k.fifo ++ (if k.isOpen then [rejectNotice r (k.framesRejected + 1)] else [])
  reserved : m.reserved.Perm k.reserved
  isOpen : m.isOpen = k.isOpen
  session : m.session = k.session
  holder : m.holder = k.holder

theorem reject_link (s : State) (l : Link) (x : Byte) (r : RejectReason) : (s.reject l x r).link l =
    ({ s.link l with framesRejected := (s.link l).framesRejected + 1 } : LinkState).place x
      (rejectNotice r ((s.link l).framesRejected + 1)) := by
  cases l <;> rfl

theorem reject_link_other (s : State) {l k : Link} (x : Byte) (r : RejectReason) (h : k ≠ l) :
    (s.reject l x r).link k = s.link k := by
  rw [State.reject, place_link_other _ _ _ _ _ h, updLink_link_other _ _ _ _ h]

/-- A taken frame is rejected in its own slot. -/
theorem rejected_of_take {s : State} {l : Link} {k : LinkState} (taken : s.link l = k.take) (r : RejectReason) :
    k.Rejected r ((s.reject l k.session r).link l) := by
  have held : k.session ∈ ({ k.take with framesRejected := k.framesRejected + 1 } : LinkState).reserved :=
    List.mem_append_right _ List.mem_cons_self
  rw [reject_link, taken, take_framesRejected, place_of_mem held]
  refine ⟨rfl, rfl, ?_, reserve_erase_perm _ _, rfl, rfl, rfl⟩
  show (if k.isOpen = true then k.fifo ++ [_] else k.fifo) = _
  split
  · rfl
  · exact (List.append_nil _).symm

/-- The receiver of the link may have begun the frame, and its timer may have run. -/
theorem LinkState.Rejected.of_receiver {k m : LinkState} {r : RejectReason} {x : Receiver} {buffer : List Byte} {n : Nat}
    (h : ({ k with receiver := x, buffer := buffer, interByte := n } : LinkState).Rejected r m) : k.Rejected r m :=
  ⟨h.framesTaken, h.framesRejected, h.fifo, h.reserved, h.isOpen, h.session, h.holder⟩

/-- The receiver may go on to discard. -/
theorem LinkState.Rejected.to_receiver {k m : LinkState} {r : RejectReason} (h : k.Rejected r m) (x : Receiver) (n : Nat) :
    k.Rejected r { m with receiver := x, interByte := n } :=
  ⟨h.framesTaken, h.framesRejected, h.fifo, h.reserved, h.isOpen, h.session, h.holder⟩

/-- What a reject changes beside its own link: nothing but, where it ended it, the link A transaction; time may have passed. -/
structure RejectElsewhere (l : Link) (s t : State) : Prop where
  other : t.link (otherLink l) = s.link (otherLink l)
  readSide : ReadSideSame s t
  jobSide : JobSideSameButTime s t
  counters : t.counters = s.counters
  protection : t.protection = s.protection
  transaction : t.spi.transaction = if l = .a then .none else s.spi.transaction

theorem reject_elsewhere {l : Link} {s t : State} (h : RejectElsewhere l s t) (x : Byte) (r : RejectReason) :
    RejectElsewhere l s (t.reject l x r) := by
  obtain ⟨other, readSide, jobSide, counters, protection, transaction⟩ := h
  refine ⟨?_, ?_, ?_, ?_, ?_, ?_⟩
  · rw [reject_link_other _ _ _ (by cases l <;> simp [otherLink]), other]
  all_goals
    simp only [ReadSideSame, JobSideSameButTime, State.reject, place_records, place_cache, place_fills, place_jq, place_staging,
      place_counters, place_protection, place_spi, updLink_records, updLink_cache, updLink_fills, updLink_jq, updLink_staging,
      updLink_counters, updLink_protection, updLink_spi]
    assumption

theorem discardRest_elsewhere {l : Link} {s t : State} (h : RejectElsewhere l s t) : RejectElsewhere l s (t.discardRest l) := by
  obtain ⟨other, readSide, jobSide, counters, protection, transaction⟩ := h
  cases l <;> exact ⟨other, readSide, jobSide, counters, protection, transaction⟩

theorem afterTake_rejectElsewhere (s : State) (l : Link) : RejectElsewhere l s (s.afterTake l) := by
  refine ⟨afterTake_other s l, ?_, ?_, afterTake_counters s l, afterTake_protection s l, afterTake_transaction s l⟩
  · exact ⟨afterTake_records s l, afterTake_cache s l, afterTake_fills s l⟩
  · exact ⟨by rw [afterTake_jq], by rw [afterTake_jq], by rw [afterTake_jq], afterTake_staging s l⟩

/-- Time passes on link B, and then its frame is taken. -/
theorem advance_rejectElsewhere (s : State) (n : Nat) : RejectElsewhere .b s ((s.advance n).take .b) := by
  have ids : (s.advance n).jq.jobs.map Job.id = s.jq.jobs.map Job.id := by
    show (s.jq.jobs.modifyHead _).map Job.id = _
    cases s.jq.jobs <;> rfl
  exact ⟨rfl, ⟨rfl, rfl, rfl⟩, ⟨ids, rfl, rfl, rfl⟩, rfl, rfl, rfl⟩

/-- What the statement asks of a reject, part by part. -/
structure RejectLeaves (l : Link) (r : RejectReason) (s t : State) : Prop where
  link : (s.link l).Rejected r (t.link l)
  receiver : (t.link l).receiver = if l = .b ∧ r = .length then .discarding else .idle
  elsewhere : RejectElsewhere l s t

/-- A frame that is taken at once. -/
theorem rejectLeaves_of_take (s : State) {l : Link} {r : RejectReason} (receiver : ¬ (l = .b ∧ r = .length)) :
    RejectLeaves l r s ((s.afterTake l).reject l (s.link l).session r) where
  link := rejected_of_take (afterTake_link s l) r
  receiver := by
    rw [if_neg receiver, reject_link, afterTake_link]
    exact place_receiver _ _ _
  elsewhere := reject_elsewhere (afterTake_rejectElsewhere s l) _ r

/-! ### Link A -/

theorem lenBad_eq_true {n : Nat} : lenBad n = true ↔ n < 2 ∨ 300 < n := by
  show (decide (300 < n) || decide (n < 2)) = true ↔ _
  simp only [Bool.or_eq_true, decide_eq_true_eq, or_comm]

theorem lenBad_eq_false {n : Nat} : lenBad n = false ↔ 2 ≤ n ∧ n ≤ 300 := by
  show (decide (300 < n) || decide (n < 2)) = false ↔ _
  simp only [Bool.or_eq_false_iff, decide_eq_false_iff_not]
  omega

/-- The bytes in link A's receive buffer can begin a frame that is taken with the reason. -/
theorem canReject_of {k : LinkState} {r : RejectReason} (h :
    let got := k.buffer.length
    let len := field k.buffer 1 2
    match r with
    | .length => got ≤ 2 ∨ len < 2 ∨ 300 < len
    | .truncated => got ≤ 2 ∨ (2 ≤ len ∧ len ≤ 300 ∧ got < len + 5)
    | .crc => got ≤ 2 ∨ (2 ≤ len ∧ len ≤ 300 ∧ (got < len + 5 ∨ frameCrcGood k.buffer = false))) :
    k.canReject r = true := by
  cases r with
  | length =>
    simp only [LinkState.canReject, LinkState.holdsBadLen, Bool.or_eq_true, Bool.and_eq_true, decide_eq_true_eq,
      lenBad_eq_true] at h ⊢
    omega
  | truncated =>
    simp only [LinkState.canReject, LinkState.holdsBadLen, LinkState.holdsWhole, Bool.and_eq_true, Bool.not_eq_true',
      Bool.and_eq_false_iff, decide_eq_false_iff_not, lenBad_eq_false] at h ⊢
    omega
  | crc =>
    simp only [LinkState.canReject, LinkState.holdsBadLen, LinkState.holdsWhole, Bool.and_eq_true, Bool.not_eq_true',
      Bool.and_eq_false_iff, decide_eq_false_iff_not, lenBad_eq_false] at h ⊢
    rcases h with short | ⟨low, high, short | bad⟩
    · omega
    · omega
    · exact ⟨.inr ⟨low, high⟩, .inr bad⟩

/-- A frame write that is taken with a reject at the rise, from wherever its transaction stands. -/
theorem exec_rejectA {s : State} {r : RejectReason} (rst : s.pins.rstAsserted = false)
    (stands : (s.spi.transaction.beforeSelector = true ∧ s.ready .a = true) ∨
      (s.receivingA = true ∧ s.linkA.canReject r = true)) :
    exec (.frameReject .a r) s = .next ((s.afterTake .a).reject .a s.linkA.session r) := by
  have taken : s.receiveA (fun _ => s.linkA.canReject r) = .taken (s.afterTake .a) := by
    rcases stands with ⟨fresh, ready⟩ | ⟨receiving, fits⟩
    · exact receiveA_fresh _ rst fresh ready
    · exact receiveA_writing receiving fits
  show s.rejectedA r = _
  rw [State.rejectedA, taken]
  rfl

/-! ### Link B -/

/-- A frame on link B that is taken, from wherever its reception stands. -/
theorem receiveB_taken {s : State} {fits : List Byte → Bool} (rst : s.pins.rstAsserted = false)
    (stands : (s.linkB.receiver = .idle ∧ s.ready .b = true) ∨ (s.linkB.receiver = .receiving ∧ fits s.linkB.buffer = true)) :
    s.receiveB fits = .taken (s.afterTake .b) := by
  rcases stands with ⟨idle, ready⟩ | ⟨receiving, fit⟩
  · simp [State.receiveB, rst, idle, ready, State.afterTake]
  · simp [State.receiveB, rst, receiving, fit, State.afterTake]

/-- A bad CRC is found at the last byte. -/
theorem exec_rejectCrc {s : State} (rst : s.pins.rstAsserted = false)
    (stands : (s.linkB.receiver = .idle ∧ s.ready .b = true) ∨ s.linkB.receiver = .receiving) :
    exec (.frameReject .b .crc) s = .next ((s.afterTake .b).reject .b s.linkB.session .crc) := by
  show (s.receiveB fun _ => true).outcome _ = _
  rw [receiveB_taken rst (stands.imp_right fun receiving => ⟨receiving, rfl⟩)]
  rfl

/-- A bad LEN is found at its second byte, and the receiver discards what follows. -/
theorem exec_rejectLength {s : State} (rst : s.pins.rstAsserted = false)
    (stands : (s.linkB.receiver = .idle ∧ s.ready .b = true) ∨
      (s.linkB.receiver = .receiving ∧ s.linkB.buffer.length ≤ 2)) :
    exec (.frameReject .b .length) s =
      .next (((s.afterTake .b).reject .b s.linkB.session .length).discardRest .b) := by
  show (s.receiveB fun buffer => buffer.length ≤ 2).outcome _ = _
  rw [receiveB_taken rst (stands.imp_right fun ⟨receiving, short⟩ => ⟨receiving, decide_eq_true short⟩)]
  rfl

/-- A frame in reception breaks off: the time left to 2 ms passes, and it is taken. -/
theorem truncateB_of_canPass {s : State} (pass : s.canPass (2000 - s.linkB.interByte) = true) : s.truncateB =
    .next (((s.advance (2000 - s.linkB.interByte)).take .b).reject .b s.linkB.session .truncated) :=
  atExpiry_of_canPass pass

theorem exec_truncate_receiving {s : State} (rst : s.pins.rstAsserted = false) (receiving : s.linkB.receiver = .receiving) :
    exec (.frameReject .b .truncated) s = s.truncateB := by
  show s.truncatedB = _
  simp [State.truncatedB, rst, receiving]

/-- A frame that begins and breaks off at once. -/
theorem exec_truncate_idle {s : State} (rst : s.pins.rstAsserted = false) (idle : s.linkB.receiver = .idle)
    (ready : s.ready .b = true) (pass : s.canPass 2000 = true) : exec (.frameReject .b .truncated) s =
      .next (((s.beginFrameB.advance 2000).take .b).reject .b s.linkB.session .truncated) := by
  have begun : s.beginFrameB.canPass 2000 = true := by
    have timers : s.beginFrameB.deadlines = s.deadlines ++ [2000] := by
      simp [State.deadlines, idle]
      rfl
    rw [State.canPass, timers, List.all_append, ← State.canPass, pass]
    rfl
  show s.truncatedB = _
  simp only [State.truncatedB, rst, idle, ready]
  exact truncateB_of_canPass (s := s.beginFrameB) begun

theorem rejectLeaves_of_advance (s : State) (n : Nat) :
    RejectLeaves .b .truncated s (((s.advance n).take .b).reject .b s.linkB.session .truncated) where
  link := (rejected_of_take (s := (s.advance n).take .b) (k := (s.advance n).linkB) rfl .truncated).of_receiver
  receiver := by
    rw [reject_link]
    exact place_receiver _ _ _
  elsewhere := reject_elsewhere (advance_rejectElsewhere s n) _ _

/-- The frame may have begun with the command. -/
theorem RejectLeaves.of_beginFrameB {s t : State} {r : RejectReason} (h : RejectLeaves .b r s.beginFrameB t) :
    RejectLeaves .b r s t where
  link := h.link.of_receiver
  receiver := h.receiver
  elsewhere := ⟨h.elsewhere.other, h.elsewhere.readSide, h.elsewhere.jobSide, h.elsewhere.counters, h.elsewhere.protection,
    h.elsewhere.transaction⟩

/-- Settles O13. -/
theorem frameRejectPlacesNotice : Obligations.FrameRejectPlacesNotice := by
  intro l r s rst standsA standsB pass
  have leaves : ∃ t, exec (.frameReject l.rejected r) s = .next t ∧ RejectLeaves l r s t := by
    cases l with
    | a =>
      refine ⟨_, exec_rejectA rst ((standsA rfl).imp_right fun ⟨receiving, h⟩ => ⟨receiving, canReject_of h⟩), ?_⟩
      exact rejectLeaves_of_take s (by simp)
    | b =>
      cases r with
      | crc => exact ⟨_, exec_rejectCrc rst ((standsB rfl).imp_right And.left), rejectLeaves_of_take s (by simp)⟩
      | length =>
        refine ⟨_, exec_rejectLength rst ((standsB rfl).imp_right fun ⟨receiving, short⟩ => ⟨receiving, short rfl⟩), ?_, rfl, ?_⟩
        · exact (rejected_of_take (afterTake_link s .b) .length).to_receiver .discarding 0
        · exact discardRest_elsewhere (reject_elsewhere (afterTake_rejectElsewhere s .b) _ _)
      | truncated =>
        rcases pass rfl rfl with ⟨pass, idle⟩ | ⟨pass, receiving⟩
        · have begun : s.linkB.receiver = .idle ∧ s.ready .b = true := by
            rcases standsB rfl with ready | ⟨receiving, -⟩
            · exact ready
            · exact absurd (idle.symm.trans receiving) (by decide)
          exact ⟨_, exec_truncate_idle rst idle begun.2 pass, (rejectLeaves_of_advance s.beginFrameB 2000).of_beginFrameB⟩
        · exact ⟨_, (exec_truncate_receiving rst receiving).trans (truncateB_of_canPass pass), rejectLeaves_of_advance s _⟩
  obtain ⟨t, done, link, receiver, elsewhere⟩ := leaves
  exact ⟨t, done, link.framesTaken, link.framesRejected, link.fifo, link.reserved, link.isOpen, link.session, link.holder,
    receiver, elsewhere.other, elsewhere.readSide, elsewhere.jobSide, elsewhere.counters, elsewhere.protection,
    elsewhere.transaction⟩

end Sys2Proof.Machine
end

section
/-! PROOFS. Overruns, transactions that select nothing, and link B's transmissions (R153 to R158). -/

namespace Sys2Proof.Machine

/-! ### Overruns -/

/-- Link A's port once an overrun has ended, where its first byte was not complete before. -/
theorem spiRisen_of_beforeSelector {s : State} (fresh : s.spi.transaction.beforeSelector = true) :
    s.spiRisen = { transaction := .none, sdo := [s.statusOut] } := by
  rw [State.spiRisen, if_pos fresh]

theorem spiRisen_of_writing {s : State} (writing : s.spi.transaction = .writing) :
    s.spiRisen = { s.spi with transaction := .none } := by
  rw [State.spiRisen, writing]
  rfl

/-- A request whose frame is lost has no effect beyond its loss, whatever its payload. -/
theorem exec_request_lost {k : Kind} {l : Link} {tag : Byte} {p : List Byte} {s t : State}
    (lost : s.receive l (requestFrame (kindCode k) tag p) = .lost t) : exec (requestOf k l tag p) s = .next t := by
  have arrives : exec (requestOf k l tag p) s = requestArrives k (bodyOf k) l.arrival tag p s := by cases k <;> rfl
  rw [arrives, requestArrives_arrival, frameTaken, lost]
  split <;> rfl

/-- The rise of an overrun, from before its first byte. -/
theorem execLinkAOverrun_fresh {s : State} (rst : s.pins.rstAsserted = false)
    (fresh : s.spi.transaction.beforeSelector = true) (busy : s.ready .a = false) :
    execLinkAOverrun s = .next { s with spi := s.spiRisen, linkA := s.linkA.overrun } := by
  simp only [execLinkAOverrun, openA_selected rst fresh, busy, receiveA_overrun _ rst fresh busy]
  rfl

/-- The rise of an overrun whose bytes are coming in. -/
theorem execLinkAOverrun_writing {s : State} (writing : s.spi.transaction = .writing)
    (receiver : s.linkA.receiver ≠ .receiving) :
    execLinkAOverrun s = .next { s with spi := s.spiRisen, linkA := s.linkA.overrun } := by
  have begun : s.openA = s := openA_of_begun (by simp [writing])
  simp only [execLinkAOverrun, begun, writing, receiver, if_false, (receiveA_begun _).1 writing receiver]
  rfl

/-- A part of a frame with no byte in yet: its first bytes. -/
theorem upTo_nil (frame : List Byte) (n : Nat) : upTo frame n [] = some (frame.take n) := by
  simp [upTo, ofFrame]

theorem requestFrame_cons (kind tag : Byte) (p : List Byte) : ∃ rest, requestFrame kind tag p = 0x5E :: rest := ⟨_, rfl⟩

/-- The bytes of an overrun up to the selector or beyond it: no byte is kept. -/
theorem shiftInA_overrun {s : State} (rst : s.pins.rstAsserted = false) (fresh : s.spi.transaction.beforeSelector = true)
    (busy : s.ready .a = false) (bytes : List Byte → Option (List Byte)) (some : (bytes []).getD [] ≠ []) :
    s.shiftInA bytes = .next { s with spi := { transaction := .writing, sdo := [s.statusOut] } } := by
  obtain ⟨p, opened⟩ := openA_frame s
  have busy' : ({ s with spi := p } : State).ready .a = false := busy
  simp only [State.shiftInA, openA_selected rst fresh, State.beginWriteA, some, if_false]
  rw [opened]
  simp only [busy']
  rfl

/-- A part of a request's frame on link A. -/
theorem exec_aUpTo (k : Kind) (n : Nat) (tag : Byte) (p : List Byte) (s : State) :
    exec (requestBy k (.aUpTo n) tag p) s = s.shiftInA (upTo (requestFrame (kindCode k) tag p) n) := by
  cases k <;> rfl

/-- Settles O14: on link A before the selector and after it, and on link B. -/
theorem unreadyLinkOverruns : Obligations.UnreadyLinkOverruns := by
  intro s rst
  refine ⟨fun busy fresh => ⟨?_, fun k tag p n pos => ?_⟩, fun writing receiver => ?_, fun busy idle => ?_⟩
  · have port := spiRisen_of_beforeSelector fresh
    refine ⟨_, execLinkAOverrun_fresh rst fresh busy, rfl, rfl, by rw [port], by rw [port],
      ⟨⟨rfl, rfl, rfl⟩, ⟨rfl, rfl, rfl⟩, rfl, rfl⟩, fun k tag p => ?_⟩
    exact exec_request_lost (receiveA_overrun _ rst fresh busy)
  · rw [exec_aUpTo]
    refine shiftInA_overrun rst fresh busy _ ?_
    obtain ⟨rest, frame⟩ := requestFrame_cons (kindCode k) tag p
    rw [upTo_nil, frame]
    cases n with
    | zero => exact absurd pos (by decide)
    | succ m => exact List.cons_ne_nil _ _
  · refine ⟨_, execLinkAOverrun_writing writing receiver, by rw [spiRisen_of_writing writing]; rfl, fun k tag p => ?_⟩
    exact exec_request_lost ((receiveA_begun _).1 writing receiver)
  · have lost : ∀ fits, s.receiveB fits = .lost (s.updLink .b LinkState.overrunB) := fun fits => by
      simp [State.receiveB, rst, idle, busy]
    refine ⟨s.updLink .b LinkState.overrunB, ?_, rfl, rfl, ⟨⟨rfl, rfl, rfl⟩, ⟨rfl, rfl, rfl⟩, rfl, rfl⟩, ?_, fun k tag p => ?_⟩
    · show execLinkBOverrun s = _
      simp [execLinkBOverrun, rst, idle, busy]
    · show execByteReceived 0x5E s = _
      simp [execByteReceived, rst, idle, busy]
    · exact exec_request_lost (l := .b) (lost fun buffer => beginsFrame buffer (requestFrame (kindCode k) tag p))

/-! ### Transactions that select nothing -/

/-- The bits of a byte made of three flags, the lowest first. -/
theorem flagBits (x y z : Bool) :
    ((if x then 0x01 else 0x00) ||| (if y then 0x02 else 0x00) ||| (if z then 0x04 else 0x00) : Byte).getLsbD 0 = x ∧
    ((if x then 0x01 else 0x00) ||| (if y then 0x02 else 0x00) ||| (if z then 0x04 else 0x00) : Byte).getLsbD 1 = y ∧
    ((if x then 0x01 else 0x00) ||| (if y then 0x02 else 0x00) ||| (if z then 0x04 else 0x00) : Byte).getLsbD 2 = z ∧
    ∀ n < 8, 3 ≤ n →
      ((if x then 0x01 else 0x00) ||| (if y then 0x02 else 0x00) ||| (if z then 0x04 else 0x00) : Byte).getLsbD n = false := by
  revert x y z
  decide

/-- The bits of the link status byte (R154). -/
theorem linkStatusByte_bits (s : State) : s.linkStatusByte.getLsbD 0 = s.ready .a ∧
    s.linkStatusByte.getLsbD 1 = (!s.linkA.fifo.isEmpty || s.linkA.holder.isSome) ∧
    s.linkStatusByte.getLsbD 2 = s.linkA.isOpen ∧ ∀ n, 3 ≤ n → s.linkStatusByte.getLsbD n = false := by
  obtain ⟨bit0, bit1, bit2, others⟩ := flagBits (s.ready .a) s.linkA.messageWaiting s.linkA.isOpen
  refine ⟨bit0, bit1, bit2, fun n hn => ?_⟩
  by_cases h : n < 8
  · exact others n h hn
  · exact BitVec.getLsbD_of_ge _ _ (Nat.le_of_not_lt h)

/-- CS_A_N falls where RST_N is deasserted: the status byte of that moment is to go out. -/
theorem fallA_eq {s : State} (rst : s.pins.rstAsserted = false) :
    s.fallA = { s with spi := { transaction := .selected s.linkStatusByte, sdo := [] } } := by
  rw [State.fallA, rst]
  rfl

theorem fall_eq {s : State} (rst : s.pins.rstAsserted = false) (none : s.spi.transaction = .none) :
    s.fall = .next { s with spi := { transaction := .selected s.linkStatusByte, sdo := [] } } := by
  rw [State.fall, if_pos none, fallA_eq rst]

/-- The first byte of a transaction that has begun, or begins with it. -/
theorem firstByte_fresh {s : State} (rst : s.pins.rstAsserted = false) (fresh : s.spi.transaction.beforeSelector = true)
    {act : State → Byte → State} (port : ∀ (q : SpiPort) (b : Byte), act { s with spi := q } b = act s b) :
    s.firstByte act = .next (act s s.statusOut) := by
  obtain ⟨q, opened⟩ := openA_frame s
  simp only [State.firstByte, openA_selected rst fresh]
  rw [opened, port]

theorem firstByte_selectsNothing {s : State} (rst : s.pins.rstAsserted = false)
    (fresh : s.spi.transaction.beforeSelector = true) :
    s.firstByte (fun t status => t.selectA status .ignored) = .next (s.selectA s.statusOut .ignored) :=
  firstByte_fresh rst fresh fun _ _ => rfl

/-- A first byte that selects nothing, and the rise after it. -/
theorem execLinkAIgnored_whole {s : State} {first : Byte} (noFrame : first ≠ 0x5E) (noFetch : first ≠ 0xC3)
    (rst : s.pins.rstAsserted = false) (fresh : s.spi.transaction.beforeSelector = true) :
    execLinkAIgnored (.whole first) s = .next { s with spi := { transaction := .none, sdo := [s.statusOut] } } := by
  simp only [execLinkAIgnored, noFrame, noFetch, or_self, if_false, firstByte_selectsNothing rst fresh]
  rfl

theorem execLinkAIgnored_select {s : State} {first : Byte} (noFrame : first ≠ 0x5E) (noFetch : first ≠ 0xC3)
    (rst : s.pins.rstAsserted = false) (fresh : s.spi.transaction.beforeSelector = true) :
    execLinkAIgnored (.select first) s = .next { s with spi := { transaction := .ignored, sdo := [s.statusOut] } } := by
  simp only [execLinkAIgnored, noFrame, noFetch, or_self, if_false, firstByte_selectsNothing rst fresh]
  rfl

/-- No byte of a frame is in with the fall alone. -/
theorem shiftInA_fall {s : State} (rst : s.pins.rstAsserted = false) (none : s.spi.transaction = .none) (frame : List Byte) :
    s.shiftInA (upTo frame 0) = .next { s with spi := { transaction := .selected s.linkStatusByte, sdo := [] } } := by
  have opened : s.openA = { s with spi := { transaction := .selected s.linkStatusByte, sdo := [] } } := by
    rw [State.openA, if_pos none, fallA_eq rst]
  simp [State.shiftInA, opened, State.beginWriteA, upTo_nil]

/-- Settles O15: from the fall, from the first byte on, and to the rise. -/
theorem unselectedTransactionShowsTheStatusByte : Obligations.UnselectedTransactionShowsTheStatusByte := by
  intro first s noFrame noFetch rst
  refine ⟨fun none => ?_, fun b selected => ?_, fun ignored => ⟨?_, ?_⟩⟩
  · obtain ⟨bit0, bit1, bit2, others⟩ := linkStatusByte_bits s
    have out : s.statusOut = s.linkStatusByte := by rw [State.statusOut, none]
    have fresh : s.spi.transaction.beforeSelector = true := by rw [none]; rfl
    refine ⟨by simp [State.sdoDriven, State.csA, none], s.linkStatusByte, bit0, bit1, bit2, others,
      ⟨_, fall_eq rst none, rfl, by simp [State.sdoDriven, State.csA, rst], fall_eq rst none, fun k tag p => ?_⟩,
      ⟨_, execLinkAIgnored_whole noFrame noFetch rst fresh, by rw [out], rfl, rfl, rfl, rfl, rfl, rfl,
        ⟨rfl, rfl, rfl⟩, ⟨rfl, rfl, rfl⟩, rfl, rfl⟩⟩
    rw [exec_aUpTo]
    exact shiftInA_fall rst none _
  · have out : s.statusOut = b := by rw [State.statusOut, selected]
    have fresh : s.spi.transaction.beforeSelector = true := by rw [selected]; rfl
    refine ⟨out ▸ execLinkAIgnored_select noFrame noFetch rst fresh, out ▸ execLinkAIgnored_whole noFrame noFetch rst fresh, ?_⟩
    show execLinkAIgnored .rise s = _
    rw [execLinkAIgnored, selected]
    rfl
  · have begun : s.openA = s := openA_of_begun (by simp [ignored])
    show execLinkAIgnored (.select first) s = _
    simp only [execLinkAIgnored, noFrame, noFetch, or_self, if_false, State.firstByte, begun, ignored]
  · show execLinkAIgnored .rise s = _
    rw [execLinkAIgnored, ignored]
    rfl

/-! ### Link B transmits -/

theorem chosen_of_holder {k : LinkState} {m : Message} (h : k.holder = some m) : k.chosen = some (m, .holder) := by
  rw [LinkState.chosen, h]

theorem chosen_of_fifo {k : LinkState} {m : Message} {rest : List Message} (holder : k.holder = none)
    (fifo : k.fifo = m :: rest) : k.chosen = some (m, .fifo) := by
  rw [LinkState.chosen, holder, fifo]

theorem chosen_of_none {k : LinkState} (holder : k.holder = none) (fifo : k.fifo = []) : k.chosen = none := by
  rw [LinkState.chosen, holder, fifo]

/-- Settles O43. -/
theorem linkBTransmitsOneMessage : Obligations.LinkBTransmitsOneMessage := by
  intro s
  refine ⟨fun idle m holder => ?_, fun idle holder m rest fifo => ?_, fun cts none => ?_, fun m tx => ?_, fun m tx => ?_⟩
  · show execTransmitBegin s true = _
    simp only [execTransmitBegin, idle, chosen_of_holder holder]
    rfl
  · show execTransmitBegin s true = _
    simp only [execTransmitBegin, idle, chosen_of_fifo holder fifo]
    rfl
  · show execTransmitBegin s cts = _
    rcases none with rfl | busy | ⟨holder, fifo⟩
    · rfl
    · cases tx : s.uart.tx with
      | none => exact absurd tx busy
      | some x => cases cts <;> simp [execTransmitBegin, tx]
    · cases cts <;> simp [execTransmitBegin, chosen_of_none holder fifo]
  · show execTransmitEnd s = _
    simp only [execTransmitEnd, tx, LinkState.sent, List.drop_one]
  · show execTransmitEnd s = _
    simp only [execTransmitEnd, tx]

end Sys2Proof.Machine
end

section
/-! PROOFS. A link A fetch, whole and in portions (R156). -/

namespace Sys2Proof.Machine

/-! ### The rise of a fetch -/

/-- Link A once a fetch has ended after `out` bytes: the message is sent if all of it has been shifted out. -/
def LinkState.fetched (k : LinkState) (chosen : Option (Message × Source)) (replaced : Bool) (out : Nat) : LinkState :=
  match chosen with
  | none => k
  | some (m, source) => if (messageFrame m).length ≤ out then k.sent source replaced else k

theorem fetchRise_eq (s : State) (chosen : Option (Message × Source)) (replaced : Bool) (out : Nat) :
    s.fetchRise chosen replaced out =
      { s with spi := { s.spi with transaction := .none }, linkA := s.linkA.fetched chosen replaced out } := by
  cases chosen with
  | none => rfl
  | some waiting =>
    by_cases whole : (messageFrame waiting.1).length ≤ out
    · simp only [State.fetchRise, LinkState.fetched, if_pos whole]
      rfl
    · simp only [State.fetchRise, LinkState.fetched, if_neg whole]
      rfl

/-- `n` more bytes and the rise. -/
theorem fetchEnd_eq {s : State} {chosen : Option (Message × Source)} {replaced : Bool} {out : Nat}
    (fetching : s.spi.transaction = .fetching chosen replaced out) (n : Nat) : s.fetchEnd n = .next { s with
      spi := { transaction := .none, sdo := s.spi.sdo ++ ((chosenBytes chosen).drop out).take n }
      linkA := s.linkA.fetched chosen replaced (out + n) } := by
  simp only [State.fetchEnd, State.inFetch, fetching, fetchRise_eq]
  rfl

/-- A portion and then `n'` more bytes with the rise are one portion with the rise. -/
theorem fetchEnd_fetchShift {s : State} {chosen : Option (Message × Source)} {replaced : Bool} {out : Nat}
    (fetching : s.spi.transaction = .fetching chosen replaced out) (n n' : Nat) :
    (s.fetchShift chosen replaced out n).fetchEnd n' = s.fetchEnd (n + n') := by
  rw [fetchEnd_eq fetching, fetchEnd_eq (s := s.fetchShift chosen replaced out n) rfl]
  simp only [State.fetchShift, List.append_assoc, Nat.add_assoc, List.take_add, List.drop_drop]

/-- The selector byte: the message that stands first is chosen. -/
theorem firstByte_fetchSelect {s : State} (rst : s.pins.rstAsserted = false)
    (fresh : s.spi.transaction.beforeSelector = true) :
    s.firstByte State.fetchSelect = .next { s with
      spi := { transaction := .fetching s.linkA.chosen false 0, sdo := [s.statusOut] } } :=
  firstByte_fresh rst fresh fun _ _ => rfl

/-- A fetch from the fall to the rise. -/
theorem execFetch_whole {s : State} (rst : s.pins.rstAsserted = false) (fresh : s.spi.transaction.beforeSelector = true)
    (n : Nat) : execFetch (.whole n) s = .next { s with
      spi := { transaction := .none, sdo := s.statusOut :: (chosenBytes s.linkA.chosen).take n }
      linkA := s.linkA.fetched s.linkA.chosen false n } := by
  have shifted := fetchEnd_eq (s := { s with
    spi := { transaction := .fetching s.linkA.chosen false 0, sdo := [s.statusOut] } }) rfl n
  simp only [execFetch, firstByte_fetchSelect rst fresh, shifted]
  simp

/-- Settles O42: the whole fetch, by what waits; and any portion of one, by what it shifts out. -/
theorem fetchShiftsOutOneMessage : Obligations.FetchShiftsOutOneMessage := by
  refine ⟨fun n s rst fresh => ⟨⟨_, firstByte_fetchSelect rst fresh, ?_⟩, _, execFetch_whole rst fresh n, rfl, rfl,
    ⟨⟨rfl, rfl, rfl⟩, ⟨rfl, rfl, rfl⟩, rfl, rfl⟩, rfl, ?_⟩, fun chosen replaced out n n' s fetching => ?_⟩
  · show execFetch (.finish n) _ = execFetch (.whole n) s
    simp only [execFetch, firstByte_fetchSelect rst fresh]
  · cases holder : s.linkA.holder with
    | some m =>
      rw [chosen_of_holder holder]
      exact ⟨rfl, rfl⟩
    | none =>
      cases fifo : s.linkA.fifo with
      | cons m rest =>
        simp only [chosen_of_fifo holder fifo]
        refine ⟨rfl, ?_⟩
        simp only [LinkState.fetched, LinkState.sent, fifo, List.drop_one, List.tail_cons]
      | nil =>
        rw [chosen_of_none holder fifo]
        exact ⟨by simp [chosenBytes], rfl⟩
  · have shift : exec (.fetch (.shift n)) s = .next (s.fetchShift chosen replaced out n) := by
      show execFetch (.shift n) s = _
      simp only [execFetch, State.inFetch, fetching]
    refine ⟨_, _, shift, fetchEnd_eq fetching n, fetchEnd_fetchShift fetching n n', rfl, rfl, rfl,
      ⟨⟨rfl, rfl, rfl⟩, ⟨rfl, rfl, rfl⟩, rfl, rfl⟩, ⟨⟨rfl, rfl, rfl⟩, ⟨rfl, rfl, rfl⟩, rfl, rfl⟩, rfl, rfl, ?_, ?_⟩
    · rintro rfl
      exact ⟨by simp [chosenBytes], rfl⟩
    · rintro m source rfl
      refine ⟨rfl, ?_⟩
      by_cases part : out + n < (messageFrame m).length
      · simp only [LinkState.fetched, if_pos part, if_neg (Nat.not_le.2 part)]
      · simp only [LinkState.fetched, if_neg part, if_pos (Nat.not_lt.1 part)]
        cases source with
        | fifo => simp only [LinkState.sent, List.drop_one]
        | holder => rfl

end Sys2Proof.Machine
end

section
/-! PROOFS. Link B's receiver, byte by byte (R157). -/

namespace Sys2Proof.Machine

/-! ### Bytes stored in RECEIVING -/

/-- A field that the bytes already hold is as before when more follow. -/
theorem field_append {bytes : List Byte} (more : List Byte) {off n : Nat} (inside : off + n ≤ bytes.length) :
    field (bytes ++ more) off n = field bytes off n := by
  rw [field, field, List.drop_append_of_le_length (by omega), List.take_append_of_le_length (by rw [List.length_drop]; omega)]

theorem execByteReceived_receiving {s : State} (rst : s.pins.rstAsserted = false) (receiving : s.linkB.receiver = .receiving)
    (b : Byte) : exec (.linkBByteReceived b) s = .next (s.storeByteB b) := by
  show execByteReceived b s = _
  simp [execByteReceived, rst, receiving]

/-- A byte that neither completes a bad LEN nor the frame is stored. -/
theorem storeByteB_kept {s : State} {b : Byte}
    (len : s.linkB.buffer.length + 1 = 3 → 2 ≤ field (s.linkB.buffer ++ [b]) 1 2 ∧ field (s.linkB.buffer ++ [b]) 1 2 ≤ 300)
    (part : 3 ≤ s.linkB.buffer.length + 1 → s.linkB.buffer.length + 1 ≠ field (s.linkB.buffer ++ [b]) 1 2 + 5) :
    s.storeByteB b = { s with linkB := { s.linkB with buffer := s.linkB.buffer ++ [b], interByte := 0 } } := by
  rw [State.storeByteB, if_neg, if_neg]
  · rfl
  · rintro ⟨long, whole⟩
    rw [List.length_append] at long whole
    exact part long whole
  · rintro ⟨third, bad⟩
    rw [List.length_append] at third
    have good := len third
    rw [maxLen] at bad
    omega

/-- A bad LEN is found at its second byte. -/
theorem storeByteB_badLen {s : State} {b : Byte} (third : s.linkB.buffer.length = 2)
    (bad : field (s.linkB.buffer ++ [b]) 1 2 < 2 ∨ 300 < field (s.linkB.buffer ++ [b]) 1 2) :
    s.storeByteB b = ((s.take .b).reject .b s.linkB.session .length).discardRest .b :=
  if_pos ⟨by rw [List.length_append, third]; rfl, bad.symm⟩

/-- The byte that makes the frame as long as its LEN says takes it. -/
theorem storeByteB_whole {s : State} {b : Byte} (low : 2 ≤ field (s.linkB.buffer ++ [b]) 1 2)
    (whole : (s.linkB.buffer ++ [b]).length = field (s.linkB.buffer ++ [b]) 1 2 + 5) :
    s.storeByteB b = s.takeWholeB (s.linkB.buffer ++ [b]) := by
  rw [State.storeByteB, if_neg, if_pos ⟨by omega, whole⟩]
  rintro ⟨third, -⟩
  omega

/-! ### The inter-byte timer -/

theorem execInterByteExpiry_receiving {s : State} (receiving : s.linkB.receiver = .receiving) :
    exec .interByteTimerExpiry s = s.truncateB := by
  show execInterByteExpiry s = _
  rw [execInterByteExpiry, receiving]

theorem execInterByteExpiry_discarding {s : State} (discarding : s.linkB.receiver = .discarding)
    (pass : s.canPass (2000 - s.linkB.interByte) = true) :
    exec .interByteTimerExpiry s = .next (s.advance (2000 - s.linkB.interByte)).receiverIdle := by
  have expiry : exec .interByteTimerExpiry s = atExpiry s (2000 - s.linkB.interByte) State.receiverIdle := by
    show execInterByteExpiry s = _
    rw [execInterByteExpiry, discarding]
    rfl
  rw [expiry, atExpiry_of_canPass pass]

/-- Settles O44: a byte in each state of the receiver, and the expiry in each state in which the timer runs. -/
theorem linkBReceiverHandlesBytes : Obligations.LinkBReceiverHandlesBytes := by
  intro b s rst
  refine ⟨fun idle noSync => ?_, fun idle ready => ?_, fun discarding => ?_, fun receiving short => ?_,
    fun receiving two low high => ?_, fun receiving two bad => ?_, fun receiving long part => ?_,
    fun receiving pass => ?_, fun discarding pass => ?_⟩
  · show execByteReceived b s = _
    simp only [execByteReceived, rst, idle, if_neg noSync]
    rfl
  · show execByteReceived 0x5E s = _
    simp only [execByteReceived, rst, idle, ready]
    rfl
  · show execByteReceived b s = _
    simp only [execByteReceived, rst, discarding, State.updLink, Bool.false_eq_true, if_false]
  · rw [execByteReceived_receiving rst receiving, storeByteB_kept] <;> omega
  · rw [execByteReceived_receiving rst receiving, storeByteB_kept] <;> omega
  · rw [execByteReceived_receiving rst receiving, storeByteB_badLen two bad,
      exec_rejectLength rst (.inr ⟨receiving, two.le⟩)]
    rfl
  · have sameLen := field_append (bytes := s.linkB.buffer) [b] (off := 1) (n := 2) long
    rw [execByteReceived_receiving rst receiving, storeByteB_kept] <;> omega
  · rw [execInterByteExpiry_receiving receiving, exec_truncate_receiving rst receiving]
  · exact ⟨_, execInterByteExpiry_discarding discarding pass, rfl, rfl, rfl, rfl, rfl⟩

end Sys2Proof.Machine
end

section
/-! PROOFS. A request frame is read back as what it was made of, and ends its reception (R155, R157, R159, R169 to R171). -/

namespace Sys2Proof.Machine

/-! ### A request frame read back -/

theorem leBytes_two (n : Nat) : leBytes 2 n = [BitVec.ofNat 8 n, BitVec.ofNat 8 (n / 256)] := rfl

theorem leNat_pair (x y : Byte) : leNat [x, y] = x.toNat + 256 * y.toNat := by
  simp [leNat]

theorem leNat_leBytes_two {n : Nat} (h : n < 65536) : leNat (leBytes 2 n) = n := by
  rw [leBytes_two, leNat_pair, BitVec.toNat_ofNat, BitVec.toNat_ofNat]
  omega

/-- What the CRC of a request frame covers: LEN, KIND, TAG and the payload. -/
def frameCovered (kind tag : Byte) (p : List Byte) : List Byte := leBytes 2 (p.length + 2) ++ kind :: tag :: p

theorem requestFrame_eq (kind tag : Byte) (p : List Byte) : requestFrame kind tag p =
    0x5E :: (frameCovered kind tag p ++ leBytes 2 (crc16 (frameCovered kind tag p)).toNat) := rfl

/-- A request frame byte by byte, but for the bytes of its CRC. -/
theorem requestFrame_bytes (kind tag : Byte) (p : List Byte) : requestFrame kind tag p =
    0x5E :: BitVec.ofNat 8 (p.length + 2) :: BitVec.ofNat 8 ((p.length + 2) / 256) :: kind :: tag ::
      (p ++ leBytes 2 (crc16 (frameCovered kind tag p)).toNat) := rfl

theorem requestFrame_length (kind tag : Byte) (p : List Byte) : (requestFrame kind tag p).length = p.length + 7 := by
  rw [requestFrame_bytes, leBytes_two]
  simp

theorem requestFrame_len (kind tag : Byte) {p : List Byte} (fits : p.length ≤ 298) :
    field (requestFrame kind tag p) 1 2 = p.length + 2 :=
  leNat_leBytes_two (n := p.length + 2) (by omega)

/-- The first bytes of a request frame hold its LEN as soon as they hold three bytes. -/
theorem requestFrame_take_len (kind tag : Byte) {p : List Byte} (fits : p.length ≤ 298) {n : Nat} (long : 3 ≤ n) :
    field ((requestFrame kind tag p).take n) 1 2 = p.length + 2 := by
  have inside : 1 + 2 ≤ ((requestFrame kind tag p).take n).length := by
    rw [List.length_take, requestFrame_length]
    omega
  rw [← field_append ((requestFrame kind tag p).drop n) inside, List.take_append_drop, requestFrame_len kind tag fits]

theorem requestFrame_payload (kind tag : Byte) (p : List Byte) :
    ((requestFrame kind tag p).drop 5).take ((requestFrame kind tag p).length - 7) = p := by
  rw [requestFrame_length, Nat.add_sub_cancel]
  exact List.take_left

theorem kindOfCode_kindCode (k : Kind) : kindOfCode (kindCode k) = some k := by
  cases k <;> rfl

/-! ### Its CRC -/

theorem frameCrcGood_iff (sync : Byte) (covered : List Byte) (x y : Byte) :
    frameCrcGood (sync :: (covered ++ [x, y])) = true ↔ x.toNat + 256 * y.toNat = (crc16 covered).toNat := by
  have size : (sync :: (covered ++ [x, y])).length = covered.length + 3 := by simp
  have last : (sync :: (covered ++ [x, y])).drop (covered.length + 3 - 2) = [x, y] := List.drop_left
  have before : ((sync :: (covered ++ [x, y])).drop 1).take (covered.length + 3 - 3) = covered := List.take_left
  simp only [frameCrcGood, size, last, before, leNat_pair, decide_eq_true_eq]

theorem requestFrame_crcGood (kind tag : Byte) (p : List Byte) : frameCrcGood (requestFrame kind tag p) = true := by
  have spelled := leNat_leBytes_two (crc16 (frameCovered kind tag p)).isLt
  rw [leBytes_two, leNat_pair] at spelled
  rw [requestFrame_eq, leBytes_two, frameCrcGood_iff, spelled]

/-- A request frame whose last byte is another has a bad CRC. -/
theorem requestFrame_crcBad {kind tag : Byte} {p : List Byte} {b : Byte}
    (other : (requestFrame kind tag p).dropLast ++ [b] ≠ requestFrame kind tag p) :
    frameCrcGood ((requestFrame kind tag p).dropLast ++ [b]) = false := by
  have spelled := leNat_leBytes_two (crc16 (frameCovered kind tag p)).isLt
  rw [leBytes_two, leNat_pair] at spelled
  have changed : (requestFrame kind tag p).dropLast ++ [b] = 0x5E :: (frameCovered kind tag p ++
      [BitVec.ofNat 8 (crc16 (frameCovered kind tag p)).toNat, b]) := by
    have two : requestFrame kind tag p = (0x5E :: (frameCovered kind tag p ++
      [BitVec.ofNat 8 (crc16 (frameCovered kind tag p)).toNat])) ++
      [BitVec.ofNat 8 ((crc16 (frameCovered kind tag p)).toNat / 256)] := by
      rw [requestFrame_eq, leBytes_two]
      simp
    rw [two, List.dropLast_concat]
    simp
  rw [← Bool.not_eq_true]
  intro good
  apply other
  rw [changed, frameCrcGood_iff, ← spelled] at good
  have same : b = BitVec.ofNat 8 ((crc16 (frameCovered kind tag p)).toNat / 256) := BitVec.eq_of_toNat_eq (by omega)
  rw [changed, same, requestFrame_eq, leBytes_two]

/-! ### The last byte on link B -/

theorem takeWholeB_good (s : State) (k : Kind) (tag : Byte) (p : List Byte) :
    s.takeWholeB (requestFrame (kindCode k) tag p) =
      ({ link := .b, session := s.linkB.session, tag := tag, payload := p } : Request).serve k (bodyOf k) (s.take .b) := by
  have kind : byteAt (requestFrame (kindCode k) tag p) 3 = kindCode k := rfl
  have tagged : byteAt (requestFrame (kindCode k) tag p) 4 = tag := rfl
  simp only [State.takeWholeB, requestFrame_crcGood, if_true, kind, tagged, requestFrame_payload, kindOfCode_kindCode]

theorem takeWholeB_bad (s : State) {bytes : List Byte} (bad : frameCrcGood bytes = false) :
    s.takeWholeB bytes = (s.take .b).reject .b s.linkB.session .crc := by
  simp only [State.takeWholeB, bad, Bool.false_eq_true, if_false]

/-- The bytes of a request frame but its last are in: the frame that they begin is taken. -/
theorem takesRequest_lastByte {s : State} {k : Kind} {tag : Byte} {p : List Byte} (rst : s.pins.rstAsserted = false)
    (receiving : s.linkB.receiver = .receiving) (fits : p.length ≤ 298) {b : Byte}
    (last : s.linkB.buffer ++ [b] = requestFrame (kindCode k) tag p) : s.takesRequest k .b tag p = true := by
  have size : payloadFits p = true := decide_eq_true (by rw [maxLen]; omega)
  have begins : beginsFrame s.linkB.buffer (requestFrame (kindCode k) tag p) = true := by
    simp [beginsFrame, ofFrame, ← last]
  simp [State.takesRequest, State.takes, size, rst, receiving, begins]

/-- A byte that follows all the bytes of a request frame but its last makes as many as its LEN says. -/
theorem storeByteB_last {s : State} {kind tag : Byte} {p : List Byte} (fits : p.length ≤ 298)
    (held : s.linkB.buffer = (requestFrame kind tag p).dropLast) (b : Byte) :
    s.storeByteB b = s.takeWholeB (s.linkB.buffer ++ [b]) := by
  have size : s.linkB.buffer.length = p.length + 6 := by
    rw [held, List.length_dropLast, requestFrame_length]
    omega
  have len : field (s.linkB.buffer ++ [b]) 1 2 = p.length + 2 := by
    rw [field_append [b] (by omega), held, List.dropLast_eq_take, requestFrame_length,
      requestFrame_take_len kind tag fits (by omega)]
  refine storeByteB_whole (by omega) ?_
  rw [len, List.length_append, size]
  rfl

/-! ### The bytes of a frame write on link A -/

/-- All bytes of a request frame are kept. -/
theorem keptBytes_requestFrame (kind tag : Byte) {p : List Byte} (fits : p.length ≤ 298) (n : Nat) :
    keptBytes ((requestFrame kind tag p).take n) = (requestFrame kind tag p).take n := by
  have size : ((requestFrame kind tag p).take n).length = min n (p.length + 7) := by
    rw [List.length_take, requestFrame_length]
  unfold keptBytes
  split
  case isTrue => rfl
  case isFalse long =>
    have len := requestFrame_take_len kind tag fits (n := n) (by omega)
    have good : lenBad (p.length + 2) = false := lenBad_eq_false.2 (by omega)
    rw [len, good, if_neg Bool.false_ne_true]
    exact List.take_of_length_le (by omega)

/-- Nothing is kept after a bad LEN. -/
theorem keptBytes_badLen {bytes : List Byte} (long : 3 ≤ bytes.length) (bad : field bytes 1 2 < 2 ∨ 300 < field bytes 1 2)
    (more : List Byte) : keptBytes (bytes ++ more) = bytes.take 3 := by
  have len : lenBad (field (bytes ++ more) 1 2) = true := by rwa [field_append more long, lenBad_eq_true]
  rw [keptBytes, if_neg (by rw [List.length_append]; omega), if_pos len, List.take_append_of_le_length long]

/-- The first bytes of a frame write on a ready link. -/
theorem shiftInA_fresh {s : State} (rst : s.pins.rstAsserted = false) (fresh : s.spi.transaction.beforeSelector = true)
    (ready : s.ready .a = true) {bytes : List Byte → Option (List Byte)} {first : List Byte}
    (begins : (bytes []).getD [] = first) (ne : first ≠ []) : s.shiftInA bytes = .next { s with
      spi := { transaction := .writing, sdo := [s.statusOut] }
      linkA := { s.linkA with receiver := .receiving, buffer := keptBytes first } } := by
  obtain ⟨q, opened⟩ := openA_frame s
  have ready' : ({ s with spi := q } : State).ready .a = true := ready
  simp only [State.shiftInA, openA_selected rst fresh, State.beginWriteA, begins, if_neg ne]
  rw [opened]
  simp only [ready']
  rfl

theorem receivingA_iff (s : State) :
    s.receivingA = true ↔ s.spi.transaction = .writing ∧ s.linkA.receiver = .receiving := by
  simp [State.receivingA]

/-- More bytes of a frame write in reception. -/
theorem shiftInA_receiving {s : State} (receivingA : s.receivingA = true) {bytes : List Byte → Option (List Byte)}
    {all : List Byte} (goesOn : bytes s.linkA.buffer = some all) :
    s.shiftInA bytes = .next { s with linkA := { s.linkA with buffer := keptBytes all } } := by
  obtain ⟨writing, receiving⟩ := (receivingA_iff s).1 receivingA
  have begun : s.openA = s := openA_of_begun (by simp [writing])
  simp only [State.shiftInA, begun, writing, receiving, if_true, goesOn, State.updLink, LinkState.receivingBytes]

/-- Link A with the first bytes of a frame write in, from before its selector. -/
def State.writeBegun (s : State) (bytes : List Byte) : State :=
  { s with spi := { transaction := .writing, sdo := [s.statusOut] },
           linkA := { s.linkA with receiver := .receiving, buffer := bytes } }

theorem writeBegun_not_ready {s : State} (kind tag : Byte) {p : List Byte} (fits : p.length ≤ 298) {n : Nat}
    (whole : (requestFrame kind tag p).length ≤ n) : (s.writeBegun ((requestFrame kind tag p).take n)).rdyA = false := by
  have holds : (s.writeBegun ((requestFrame kind tag p).take n)).linkA.holdsWhole = true := by
    show (decide (3 ≤ (List.take n _).length) && decide (field (List.take n _) 1 2 + 5 ≤ (List.take n _).length)) = true
    rw [List.take_of_length_le whole, requestFrame_len kind tag fits, requestFrame_length]
    simp
  simp [State.rdyA, State.ready, State.link, holds]

/-- A request whose first bytes are in acts at the rise as one that is sent whole. -/
theorem exec_writeBegun {s : State} {k : Kind} {tag : Byte} {p : List Byte} (fits : p.length ≤ 298)
    (rst : s.pins.rstAsserted = false) (ready : s.ready .a = true) (fresh : s.spi.transaction.beforeSelector = true) (n : Nat) :
    exec (requestOf k .a tag p) (s.writeBegun ((requestFrame (kindCode k) tag p).take n)) = exec (requestOf k .a tag p) s := by
  have size : payloadFits p = true := decide_eq_true (by rw [maxLen]; omega)
  have whole : s.takesRequest k .a tag p = true := by simp [State.takesRequest, State.takes, size, rst, ready, fresh]
  have rest : (s.writeBegun ((requestFrame (kindCode k) tag p).take n)).takesRequest k .a tag p = true := by
    have begins : ofFrame (requestFrame (kindCode k) tag p) ((requestFrame (kindCode k) tag p).take n) = true := by
      simp [ofFrame]
    simp [State.takesRequest, State.takes, State.writeBegun, State.receivingA, size, rst, begins]
  have taken : (s.writeBegun ((requestFrame (kindCode k) tag p).take n)).afterTake .a = s.afterTake .a := by
    simp only [State.afterTake, spiRisen_of_beforeSelector fresh]
    rfl
  rw [exec_served rest, exec_served whole, taken]
  rfl

/-- Settles O45: the last byte on link B; on link A the first bytes, further bytes, and bytes after a bad LEN. -/
theorem lastByteActsAsTheRequest : Obligations.LastByteActsAsTheRequest := by
  refine ⟨fun k tag p b s rst receiving fits => ⟨fun last => ?_, fun held other => ?_⟩,
    fun k tag p n s rst fits => ⟨fun ready fresh => ?_, fun receiving held m => ?_, fun receiving long bad more r => ?_⟩⟩
  · have held : s.linkB.buffer = (requestFrame (kindCode k) tag p).dropLast := by rw [← last, List.dropLast_concat]
    rw [execByteReceived_receiving rst receiving, storeByteB_last fits held, last, takeWholeB_good,
      exec_served (takesRequest_lastByte rst receiving fits last)]
    rfl
  · rw [held] at other
    rw [execByteReceived_receiving rst receiving, storeByteB_last fits held, held,
      takeWholeB_bad s (requestFrame_crcBad other), exec_rejectCrc rst (.inr receiving)]
    rfl
  · obtain ⟨rest, frame⟩ := requestFrame_cons (kindCode k) tag p
    have kept := keptBytes_requestFrame (kindCode k) tag fits (n + 1)
    have some : (requestFrame (kindCode k) tag p).take (n + 1) ≠ [] := by simp [frame]
    refine ⟨s.writeBegun ((requestFrame (kindCode k) tag p).take (n + 1)), ?_, rfl, writeBegun_not_ready _ _ fits,
      exec_writeBegun fits rst ready fresh _, fun r => ?_⟩
    · rw [exec_aUpTo, shiftInA_fresh rst fresh ready (by rw [upTo_nil]; rfl) some, kept]
      rfl
    · show s.shiftInA (moreBytes (((requestFrame (kindCode k) tag p).drop 1).take n)) = _
      have spelled : (moreBytes (((requestFrame (kindCode k) tag p).drop 1).take n) []).getD [] =
          (requestFrame (kindCode k) tag p).take (n + 1) := by rw [frame]; rfl
      rw [shiftInA_fresh rst fresh ready spelled some, kept]
      rfl
  · have goesOn : upTo (requestFrame (kindCode k) tag p) (n + 1 + m) s.linkA.buffer =
        some ((requestFrame (kindCode k) tag p).take (n + 1 + m)) := by
      have most : max (n + 1 + m) s.linkA.buffer.length = n + 1 + m := by rw [held, List.length_take]; omega
      have begins : ofFrame (requestFrame (kindCode k) tag p) s.linkA.buffer = true := by simp [ofFrame, held]
      rw [upTo, if_pos begins, most]
    rw [exec_aUpTo, shiftInA_receiving receiving goesOn, keptBytes_requestFrame _ _ fits]
  · have ne : s.linkA.buffer ≠ [] := List.ne_nil_of_length_pos (by omega)
    have goesOn : moreBytes more s.linkA.buffer = some (s.linkA.buffer ++ more) := by rw [moreBytes, if_neg ne]
    show s.shiftInA (moreBytes more) = _
    rw [shiftInA_receiving receiving goesOn, keptBytes_badLen long bad]

end Sys2Proof.Machine
end
